-- ==== Sys2Proof/Word.lean ====
section
/-! DEFINITION. The word types of the block: the widths the spec's data model fixes (R9). -/

namespace Sys2Proof

/-- A byte: register-window data, header bytes, ring bytes (`u8`, R9). -/
abbrev Byte := BitVec 8

/-- A 16-bit word: the bus ports and the transfer words (`u16`, R9). -/
abbrev Word := BitVec 16

/-- An external byte address (`u19`, R27). -/
abbrev Addr := BitVec 19

/-- A register-window slot index, the value of the address latch (`u4`, R21). -/
abbrev Slot := BitVec 4

end Sys2Proof
end

