-- ==== Sys2Proof/Syntax.lean ====
section
/-! DEFINITION. The transactions of the block, one constructor per row of spec/opcode_table.json (R73 to R76). -/

namespace Sys2Proof

/-- The track type operand of DECODE (R76, R78). -/
inductive TrackKind where
  | audio
  | data
  deriving DecidableEq, Repr

/-- A recorded transaction: one selector of R74, R75 or R76 with its operands. `lba` is a signed integer (R78), `track` the
opaque handle given to the disc-image reader (R78), `cycles` a count (R76). -/
inductive Instr where
  -- register-window reads (R74, R89 to R105)
  | rdComin
  | rdIfstat
  | rdDbcl
  | rdDbch
  | rdHead0
  | rdHead1
  | rdHead2
  | rdHead3
  | rdPtl
  | rdPth
  | rdWal
  | rdWah
  | rdStat0
  | rdStat1
  | rdStat2
  | rdStat3
  -- register-window writes (R74, R106 to R122)
  | wrSbout (d : Byte)
  | wrIfctrl (d : Byte)
  | wrDbcl (d : Byte)
  | wrDbch (d : Byte)
  | wrDacl (d : Byte)
  | wrDach (d : Byte)
  | wrDtrg (d : Byte)
  | wrDtack (d : Byte)
  | wrWal (d : Byte)
  | wrWah (d : Byte)
  | wrCtrl0 (d : Byte)
  | wrCtrl1 (d : Byte)
  | wrPtl (d : Byte)
  | wrPth (d : Byte)
  | wrCtrl2 (d : Byte)
  | wrReset (d : Byte)
  -- bus ports (R75, R158 to R166)
  | moderd
  | modewl (d : Byte)
  | modewh (d : Byte)
  | moderdh
  | dmaard
  | dmaawr (v : Word)
  | hostrd
  | swrd
  | swwr (v : Word)
  -- entry points and resets (R76)
  | decodeSector (lba : Int) (kind : TrackKind) (track : Nat)
  | stepTick (cycles : Nat)
  | dma
  | poll
  | sysReset
  | construct
  deriving DecidableEq, Repr

end Sys2Proof
end

