-- ==== Sys2Proof/WellFormed.lean ====
section
/-! DEFINITION. Which transactions have operands inside the ranges the spec gives them (R76, R78). -/

namespace Sys2Proof

/-- `lba` is a two's-complement 32-bit value (R78). -/
def lbaInRange (lba : Int) : Bool := decide (-(2 ^ 31) ≤ lba ∧ lba < 2 ^ 31)

/-- `cycles` is a `u32` (R76). -/
def cyclesInRange (cycles : Nat) : Bool := decide (cycles < 2 ^ 32)

/-- A track handle fits the one byte this model gives it (assumption log 2). -/
def trackInRange (track : Nat) : Bool := decide (track < 256)

/-- The operands of the transaction lie in their ranges; every other operand is a bit vector of the width the spec gives. -/
def WellFormed : Instr → Bool
  | .decodeSector lba _ track => lbaInRange lba && trackInRange track
  | .stepTick cycles => cyclesInRange cycles
  | .rdComin | .rdIfstat | .rdDbcl | .rdDbch | .rdHead0 | .rdHead1 | .rdHead2 | .rdHead3 => true
  | .rdPtl | .rdPth | .rdWal | .rdWah | .rdStat0 | .rdStat1 | .rdStat2 | .rdStat3 => true
  | .wrSbout _ | .wrIfctrl _ | .wrDbcl _ | .wrDbch _ | .wrDacl _ | .wrDach _ | .wrDtrg _ | .wrDtack _ => true
  | .wrWal _ | .wrWah _ | .wrCtrl0 _ | .wrCtrl1 _ | .wrPtl _ | .wrPth _ | .wrCtrl2 _ | .wrReset _ => true
  | .moderd | .modewl _ | .modewh _ | .moderdh | .dmaard | .dmaawr _ | .hostrd | .swrd | .swwr _ => true
  | .dma | .poll | .sysReset | .construct => true

end Sys2Proof
end

