-- ==== Sys2Proof/Decode.lean ====
section
/-! DEFINITION. The decoder of recorded transactions, total on any bytes (R82), and after it the encoder, both written
from the selector tables of R74, R75 and R76. A transaction is its selector byte followed by its operand bytes (R73); how
a multi-byte operand lies in bytes is the model's choice (assumption log 2). -/

namespace Sys2Proof

/-- Why a byte sequence is no transaction. -/
inductive DecodeError where
  /-- a selector R79 reserves -/
  | reserved (sel : Byte)
  /-- the bytes end before the operands the selector calls for (assumption log 4) -/
  | truncated
  /-- the kind byte of DECODE names neither `audio` nor `data` (assumption log 5) -/
  | badKind (b : Byte)
  deriving DecidableEq, Repr

/-- The row of a register-window read (R74): slot `k` of the read table of R39. -/
def readRow (k : Slot) : Instr :=
  match k.toNat with
  | 0 => .rdComin
  | 1 => .rdIfstat
  | 2 => .rdDbcl
  | 3 => .rdDbch
  | 4 => .rdHead0
  | 5 => .rdHead1
  | 6 => .rdHead2
  | 7 => .rdHead3
  | 8 => .rdPtl
  | 9 => .rdPth
  | 10 => .rdWal
  | 11 => .rdWah
  | 12 => .rdStat0
  | 13 => .rdStat1
  | 14 => .rdStat2
  | _ => .rdStat3

/-- The row of a register-window write (R74): slot `k` of the write table of R39, with the byte written. -/
def writeRow (k : Slot) (d : Byte) : Instr :=
  match k.toNat with
  | 0 => .wrSbout d
  | 1 => .wrIfctrl d
  | 2 => .wrDbcl d
  | 3 => .wrDbch d
  | 4 => .wrDacl d
  | 5 => .wrDach d
  | 6 => .wrDtrg d
  | 7 => .wrDtack d
  | 8 => .wrWal d
  | 9 => .wrWah d
  | 10 => .wrCtrl0 d
  | 11 => .wrCtrl1 d
  | 12 => .wrPtl d
  | 13 => .wrPth d
  | 14 => .wrCtrl2 d
  | _ => .wrReset d

/-- The class field `sel[7:5]` (R73). -/
def selClass (sel : Byte) : BitVec 3 := sel.extractLsb' 5 3

/-- The `dir` bit `sel[4]` of class REGWIN: true for a write (R73). -/
def selDir (sel : Byte) : Bool := sel.getLsbD 4

/-- The `slot` field `sel[3:0]` of class REGWIN (R73). -/
def selSlot (sel : Byte) : Slot := sel.extractLsb' 0 4

/-- The `op` field `sel[4:0]` of classes PORT and ENTRY (R73). -/
def selOp (sel : Byte) : BitVec 5 := sel.extractLsb' 0 5

/-- Takes a `d8` operand. -/
def takeByte (mk : Byte → Instr) : List Byte → Except DecodeError (Instr × List Byte)
  | d :: rest => .ok (mk d, rest)
  | [] => .error .truncated

/-- Takes a `d16` operand, high byte first (assumption log 2). -/
def takeWord (mk : Word → Instr) : List Byte → Except DecodeError (Instr × List Byte)
  | hi :: lo :: rest => .ok (mk (hi ++ lo), rest)
  | _ => .error .truncated

/-- Takes the `u32` operand of STEP, high byte first (assumption log 2). -/
def takeCycles : List Byte → Except DecodeError (Instr × List Byte)
  | b3 :: b2 :: b1 :: b0 :: rest => .ok (.stepTick ((b3 ++ b2 ++ b1 ++ b0 : BitVec 32).toNat), rest)
  | _ => .error .truncated

/-- The track kind a kind byte names: 0 audio, 1 data (assumption log 2). -/
def kindOfByte (b : Byte) : Option TrackKind :=
  if b = 0 then some .audio else if b = 1 then some .data else none

/-- Takes the operands of DECODE: `lba` high byte first, the kind byte, the track handle (assumption log 2). -/
def takeDecode : List Byte → Except DecodeError (Instr × List Byte)
  | b3 :: b2 :: b1 :: b0 :: kb :: tr :: rest =>
    match kindOfByte kb with
    | some kind => .ok (.decodeSector ((b3 ++ b2 ++ b1 ++ b0 : BitVec 32).toInt) kind tr.toNat, rest)
    | none => .error (.badKind kb)
  | _ => .error .truncated

/-- Class PORT (R75). -/
def decodePort (sel : Byte) (rest : List Byte) : Except DecodeError (Instr × List Byte) :=
  match (selOp sel).toNat with
  | 0x00 => .ok (.moderd, rest)
  | 0x01 => takeByte .modewl rest
  | 0x02 => takeByte .modewh rest
  | 0x03 => .ok (.moderdh, rest)
  | 0x04 => .ok (.dmaard, rest)
  | 0x05 => takeWord .dmaawr rest
  | 0x06 => .ok (.hostrd, rest)
  | 0x07 => .ok (.swrd, rest)
  | 0x08 => takeWord .swwr rest
  | _ => .error (.reserved sel)

/-- Class ENTRY (R76). -/
def decodeEntry (sel : Byte) (rest : List Byte) : Except DecodeError (Instr × List Byte) :=
  match (selOp sel).toNat with
  | 0x00 => takeDecode rest
  | 0x01 => takeCycles rest
  | 0x02 => .ok (.dma, rest)
  | 0x03 => .ok (.poll, rest)
  | 0x04 => .ok (.sysReset, rest)
  | 0x05 => .ok (.construct, rest)
  | _ => .error (.reserved sel)

/-- Class REGWIN (R74): all 32 selectors are defined. -/
def decodeWindow (sel : Byte) (rest : List Byte) : Except DecodeError (Instr × List Byte) :=
  if selDir sel then takeByte (writeRow (selSlot sel)) rest else .ok (readRow (selSlot sel), rest)

/-- The decoder (R82): the transaction at the head of the bytes, with the bytes after it. -/
def decode : List Byte → Except DecodeError (Instr × List Byte)
  | [] => .error .truncated
  | sel :: rest =>
    match (selClass sel).toNat with
    | 0 => decodeWindow sel rest
    | 1 => decodePort sel rest
    | 2 => decodeEntry sel rest
    | _ => .error (.reserved sel)

/-- The selectors R79 reserves: 0x29 to 0x3F, 0x46 to 0x5F and 0x60 to 0xFF. -/
def isReserved (sel : Byte) : Bool :=
  let n := sel.toNat
  decide ((0x29 ≤ n ∧ n ≤ 0x3F) ∨ (0x46 ≤ n ∧ n ≤ 0x5F) ∨ 0x60 ≤ n)

/-- The selector of a transaction (R74: read of slot k is `0x00 | k`, write of slot k is `0x10 | k`; R75: `0x20 | op`;
R76: `0x40 | op`). -/
def selector : Instr → Byte
  | .rdComin => 0x00
  | .rdIfstat => 0x01
  | .rdDbcl => 0x02
  | .rdDbch => 0x03
  | .rdHead0 => 0x04
  | .rdHead1 => 0x05
  | .rdHead2 => 0x06
  | .rdHead3 => 0x07
  | .rdPtl => 0x08
  | .rdPth => 0x09
  | .rdWal => 0x0A
  | .rdWah => 0x0B
  | .rdStat0 => 0x0C
  | .rdStat1 => 0x0D
  | .rdStat2 => 0x0E
  | .rdStat3 => 0x0F
  | .wrSbout _ => 0x10
  | .wrIfctrl _ => 0x11
  | .wrDbcl _ => 0x12
  | .wrDbch _ => 0x13
  | .wrDacl _ => 0x14
  | .wrDach _ => 0x15
  | .wrDtrg _ => 0x16
  | .wrDtack _ => 0x17
  | .wrWal _ => 0x18
  | .wrWah _ => 0x19
  | .wrCtrl0 _ => 0x1A
  | .wrCtrl1 _ => 0x1B
  | .wrPtl _ => 0x1C
  | .wrPth _ => 0x1D
  | .wrCtrl2 _ => 0x1E
  | .wrReset _ => 0x1F
  | .moderd => 0x20
  | .modewl _ => 0x21
  | .modewh _ => 0x22
  | .moderdh => 0x23
  | .dmaard => 0x24
  | .dmaawr _ => 0x25
  | .hostrd => 0x26
  | .swrd => 0x27
  | .swwr _ => 0x28
  | .decodeSector _ _ _ => 0x40
  | .stepTick _ => 0x41
  | .dma => 0x42
  | .poll => 0x43
  | .sysReset => 0x44
  | .construct => 0x45

/-- The bytes of a 16-bit operand, high byte first. -/
def wordBytes (v : Word) : List Byte := [v.extractLsb' 8 8, v.extractLsb' 0 8]

/-- The bytes of a 32-bit operand, high byte first. -/
def quadBytes (v : BitVec 32) : List Byte :=
  [v.extractLsb' 24 8, v.extractLsb' 16 8, v.extractLsb' 8 8, v.extractLsb' 0 8]

/-- The kind byte: 0 audio, 1 data. -/
def byteOfKind : TrackKind → Byte
  | .audio => 0
  | .data => 1

/-- The operand bytes of a transaction (R73 to R76). -/
def operandBytes : Instr → List Byte
  | .wrSbout d | .wrIfctrl d | .wrDbcl d | .wrDbch d | .wrDacl d | .wrDach d | .wrDtrg d | .wrDtack d => [d]
  | .wrWal d | .wrWah d | .wrCtrl0 d | .wrCtrl1 d | .wrPtl d | .wrPth d | .wrCtrl2 d | .wrReset d => [d]
  | .modewl d | .modewh d => [d]
  | .dmaawr v | .swwr v => wordBytes v
  | .decodeSector lba kind track => quadBytes (BitVec.ofInt 32 lba) ++ [byteOfKind kind, BitVec.ofNat 8 track]
  | .stepTick cycles => quadBytes (BitVec.ofNat 32 cycles)
  | .rdComin | .rdIfstat | .rdDbcl | .rdDbch | .rdHead0 | .rdHead1 | .rdHead2 | .rdHead3 => []
  | .rdPtl | .rdPth | .rdWal | .rdWah | .rdStat0 | .rdStat1 | .rdStat2 | .rdStat3 => []
  | .moderd | .moderdh | .dmaard | .hostrd | .swrd | .dma | .poll | .sysReset | .construct => []

/-- The encoder: the selector byte followed by the operand bytes (R73). -/
def encode (i : Instr) : List Byte := selector i :: operandBytes i

/-- The bytes of an instruction whose bits are `w`, numbered as spec/opcode_table.json numbers them: byte `k` is bits
`8k+7..8k`; bits from `nbits` up are 0. Seven bytes, the length of the longest transaction (DECODE). -/
def tableBytes (nbits w : Nat) : List Byte :=
  (List.range 7).map fun k => BitVec.ofNat 8 ((w % 2 ^ nbits) / 256 ^ k)

/-- The instruction the decoder reads from an opcode-table word; `none` where it refuses. -/
def decodeTableWord (nbits w : Nat) : Option Instr :=
  match decode (tableBytes nbits w) with
  | .ok (i, _) => some i
  | .error _ => none

/-- The bytes of `tableBytes` that the decoded transaction takes; all seven where the decoder refuses. -/
def tableTransaction (nbits w : Nat) : List Byte :=
  match decode (tableBytes nbits w) with
  | .ok (_, rest) => (tableBytes nbits w).take (7 - rest.length)
  | .error _ => tableBytes nbits w

/-- The slot an access of the register window names; `none` for the other classes (R39, R73, R74). -/
def slotOf : Instr → Option Slot
  | .rdComin | .wrSbout _ => some 0
  | .rdIfstat | .wrIfctrl _ => some 1
  | .rdDbcl | .wrDbcl _ => some 2
  | .rdDbch | .wrDbch _ => some 3
  | .rdHead0 | .wrDacl _ => some 4
  | .rdHead1 | .wrDach _ => some 5
  | .rdHead2 | .wrDtrg _ => some 6
  | .rdHead3 | .wrDtack _ => some 7
  | .rdPtl | .wrWal _ => some 8
  | .rdPth | .wrWah _ => some 9
  | .rdWal | .wrCtrl0 _ => some 10
  | .rdWah | .wrCtrl1 _ => some 11
  | .rdStat0 | .wrPtl _ => some 12
  | .rdStat1 | .wrPth _ => some 13
  | .rdStat2 | .wrCtrl2 _ => some 14
  | .rdStat3 | .wrReset _ => some 15
  | .moderd | .modewl _ | .modewh _ | .moderdh | .dmaard | .dmaawr _ | .hostrd | .swrd | .swwr _ => none
  | .decodeSector _ _ _ | .stepTick _ | .dma | .poll | .sysReset | .construct => none

end Sys2Proof
end

