-- ==== Sys2Proof/Config.lean ====
section
/-! DEFINITION. What the surrounding system fixes and the spec leaves open: the named parameters of R11 that belong to
no track, and the free ring contents of a system reset (R192). The opaque constants have no body, so no proof can see a
value of them. -/

namespace Sys2Proof

/-- Which byte of the mode register the host-side image receives (R11, R159). -/
inductive HostModeByte where
  | high
  | low
  deriving DecidableEq, Repr, Inhabited

/-- How the image file of a track is laid out (`P_IMAGE_LAYOUT`, R11, R135). -/
inductive ImageLayout where
  | iso
  | binCue
  deriving DecidableEq, Repr, Inhabited

/-- `P_MAIN_MODE_BYTE` (R11, R159): left open by the spec, so a constant with no body. Assumption log 10. -/
opaque Config.mainModeByte : HostModeByte

/-- `P_IRQ_LINE` (R11, R178): the name every interrupt-line call carries, left open by the spec. Assumption log 11. -/
opaque Config.irqLine : String

/-- The free contents of the ring after a system reset (R192, "any value"): `Config.ringDraw n a` is byte `a` of the
`n`-th draw. Nothing constrains it. Assumption log 9. -/
opaque Config.ringDraw : Nat → Nat → Byte

/-- The ring buffer's size in bytes (R9, R36). -/
def ringSize : Nat := 16384

/-- The raw sector size by which `pointer` and `target` advance (R10, R133). -/
def sectorAdvance : Nat := 2352

/-- Bytes of user payload in a Mode-1 sector (R10). -/
def payloadSize : Nat := 2048

/-- The pregap offset in frames (R10). -/
def pregapFrames : Int := 150

/-- Number of frame counts a two-digit BCD minute can hold: 100 minutes of 4500 frames (R128). -/
def timecodeFrames : Int := 450000

/-- The canonical 12-byte sync pattern (R10, R137). -/
def syncPattern : List Byte :=
  [0x00, 0xFF, 0xFF, 0xFF, 0xFF, 0xFF, 0xFF, 0xFF, 0xFF, 0xFF, 0xFF, 0x00]

end Sys2Proof
end

