-- ==== Sys2Proof/Machine/State.lean ====
section
/-! DEFINITION. The state of the block (10_state.md) as plain data, the reasons a step can stop, and the state after
power-on (R191). -/

namespace Sys2Proof.Machine

/-- The register-window address latch (R21). -/
structure RegFile where
  address : Slot
  deriving DecidableEq, Repr

/-- The flags of the status-output path (R22). -/
structure Status where
  enable : Bool
  wait : Bool
  active : Bool
  busy : Bool
  deriving DecidableEq, Repr

/-- The decoder flags (R23). -/
structure Decoder where
  enable : Bool
  mode : Bool
  form : Bool
  valid : Bool
  deriving DecidableEq, Repr

/-- The current sector's header (R24). -/
structure Header where
  minute : Byte
  second : Byte
  frame : Byte
  mode : Byte
  deriving DecidableEq, Repr

/-- The control bits of CTRL0, CTRL1 and IFCTRL bit 4 (R25, R40, R41, R42). CTRL0 bit 7 is `Decoder.enable`. -/
structure Control where
  ctrl0bit6 : Bool
  errorCorrection : Bool
  autoCorrection : Bool
  erasureRequest : Bool
  writeRequest : Bool
  qCorrection : Bool
  pCorrection : Bool
  syncInterrupt : Bool
  syncDetect : Bool
  descramble : Bool
  cowren : Bool
  mode : Bool
  form : Bool
  mbckrq : Bool
  head : Bool
  commandBreak : Bool
  deriving DecidableEq, Repr

/-- The transfer engine's registers and flags (R26 to R32). -/
structure Transfer where
  destination : BitVec 3
  address : Addr
  source : Word
  target : Word
  pointer : Word
  length : BitVec 12
  enable : Bool
  active : Bool
  busy : Bool
  wait : Bool
  ready : Bool
  completed : Bool
  deriving DecidableEq, Repr

/-- One interrupt source (R33). -/
structure IrqSource where
  enable : Bool
  pending : Bool
  deriving DecidableEq, Repr

/-- The three interrupt sources and the level last driven on the line (R33, R34, R35). -/
structure Irq where
  decoder : IrqSource
  transfer : IrqSource
  command : IrqSource
  line : Bool
  deriving DecidableEq, Repr

/-- A command or status FIFO: eight entries, two pointers, the empty flag (R37). -/
structure Fifo where
  fifo : List Byte
  read : BitVec 3
  write : BitVec 3
  empty : Bool
  deriving DecidableEq, Repr

/-- Ring contents as cells (address, byte), in the canonical form `Memory.wf`; an unlisted address reads 0x00, the
value of every byte at construction (R36). -/
abbrev Memory := List Host.Cell

/-- The canonical form: addresses strictly rising, all below the ring's size, no cell holding 0x00. -/
abbrev Memory.wf (m : Memory) : Prop :=
  m.Pairwise (fun x y => x.1 < y.1) ∧ ∀ c ∈ m, c.1 < ringSize ∧ c.2 ≠ 0

/-- One track the disc-image reader serves (R11, R135, R138): its layout, its `sector_size` (used by BIN/CUE images only)
and the bytes of its image file. Model input, never written (assumption log 8). -/
structure ImageTrack where
  layout : ImageLayout
  sectorSize : Nat
  image : List Byte
  deriving DecidableEq, Repr

/-- The two diagnostics (R137, R173). -/
inductive DiagKind where
  | syncMismatch
  | headerMismatch
  deriving DecidableEq, Repr

/-- What the block does at its external ports, and its diagnostics (R15). The two interrupt-line calls carry the name
`Config.irqLine` (R11); it is a constant, so it is not repeated in each event. -/
inductive Event where
  | wramWrite (a : Addr) (v : Word)
  | prgWrite (a : Addr) (v : Word)
  | pcmWrite8 (a : Addr) (v : Byte)
  | imageRead (track : Nat) (offset : Int) (len : Nat)
  | irqRaise
  | irqLower
  | diag (kind : DiagKind) (value : Int)
  deriving DecidableEq, Repr

/-- The value a transaction returns (R13, R77). -/
inductive Response where
  | none
  | u8 (v : Byte)
  | u16 (v : Word)
  deriving DecidableEq, Repr

/-- The machine. The fields down to `stopwatch` are the block's state, one component per rule of 10_state.md; the
fields after it are the model's own (INVENTORY.md, State). -/
structure State where
  regfile : RegFile
  status : Status
  decoder : Decoder
  header : Header
  control : Control
  transfer : Transfer
  irq : Irq
  /-- the RingBuffer (R36) -/
  ring : Memory
  /-- the command FIFO (R37) -/
  cmdfifo : Fifo
  /-- the status FIFO (R37) -/
  statfifo : Fifo
  /-- the 12-bit stopwatch (R38) -/
  stopwatch : BitVec 12
  /-- MODEL'S OWN: the recorded transactions still to be performed, as bytes (assumption log 1) -/
  input : List Byte
  /-- MODEL'S OWN: what the last transaction returned (assumption log 6) -/
  response : Response
  /-- MODEL'S OWN: port calls and diagnostics of the run, oldest first (assumption log 7) -/
  events : List Event
  /-- MODEL'S OWN: the disc-image reader's tracks; handle `n` is the `n`-th entry (assumption log 8) -/
  disc : List ImageTrack
  /-- MODEL'S OWN: how many free ring draws have been taken (assumption log 9) -/
  draws : Nat
  deriving DecidableEq, Repr

/-- Reasons a step stops with a fault. The block itself has none (R171). -/
inductive Fault where
  /-- Raised by `step` when the recorded input ends inside a transaction: its operands have not been issued, so there is
  nothing the block could perform. Safe: the machine stops where the block would wait (assumption log 4). -/
  | inputTruncated
  deriving DecidableEq, Repr

/-- Reasons a transaction is refused (R17, R175). -/
inductive Refusal where
  /-- Raised by `exec` for an instruction that has no meaning yet; safe. -/
  | notModelled (mnemonic : String)
  /-- Raised by `step` on a reserved selector and by every register-window access whose slot is not the current latch
  (R84). Safe: the run ends refused. -/
  | unknownTransaction
  /-- Raised by RD.HEAD0 to RD.HEAD3 in sub-header mode (R97). Safe. -/
  | unsupportedSubheaderRead
  /-- Raised by DECODE with the decoder enabled and `lba + 150` outside 0..449999 (R128). Safe. -/
  | timecodeOutOfRange
  /-- Raised by DECODE when the disc-image reader returns fewer bytes than asked (R138). Safe. -/
  | shortImageRead
  /-- Raised by `step` on a DECODE whose kind byte is neither 0 nor 1, a form of this model's own operand bytes that
  names no track kind (assumption log 5). Safe. -/
  | unknownTrackKind
  deriving DecidableEq, Repr

/-- A FIFO after construction or system reset (R191, R192). -/
def emptyFifo : Fifo := { fifo := [0, 0, 0, 0, 0, 0, 0, 0], read := 0, write := 0, empty := true }

/-- An interrupt source after every reset (R123). -/
def idleSource : IrqSource := { enable := false, pending := false }

/-- The state right after power-on, the CONSTRUCT column of R194; the model's own fields are empty. -/
def State.reset : State where
  regfile := { address := 0 }
  status := { enable := false, wait := false, active := false, busy := false }
  decoder := { enable := false, mode := false, form := false, valid := false }
  header := { minute := 0x00, second := 0x00, frame := 0x00, mode := 0x00 }
  control :=
    { ctrl0bit6 := false, errorCorrection := false, autoCorrection := false, erasureRequest := false,
      writeRequest := false, qCorrection := false, pCorrection := false, syncInterrupt := false, syncDetect := false,
      descramble := false, cowren := false, mode := false, form := false, mbckrq := false, head := false,
      commandBreak := false }
  transfer :=
    { destination := 0, address := 0, source := 0, target := 0, pointer := 0, length := 0, enable := false,
      active := false, busy := false, wait := false, ready := false, completed := false }
  irq := { decoder := idleSource, transfer := idleSource, command := idleSource, line := false }
  ring := []
  cmdfifo := emptyFifo
  statfifo := emptyFifo
  stopwatch := 0
  input := []
  response := .none
  events := []
  disc := []
  draws := 0

/-- How a transaction or a step ends. -/
abbrev Result := Host.Outcome State Fault Refusal

end Sys2Proof.Machine
end

