-- ==== Sys2Proof/Machine/Ops.lean ====
section
/-! DEFINITION. The named operations over the state: one update per component, the ring buffer's reads and writes (R55),
the latch protocol of the register window (R85, R86), the interrupt aggregator (R177), the reset of the sub-states
(R123), and the fetch of the next recorded transaction. The block takes no exception and returns from none (R171, R181,
R182): driving its interrupt line, `driveLine`, is the one operation that stands in that place. -/

namespace Sys2Proof.Machine

/-! ### Updates of one component -/

/-- Sets the address latch (R21). -/
def State.setLatch (s : State) (k : Slot) : State := { s with regfile := { address := k } }

/-- Replaces the status sub-state (R22). -/
def State.setStatus (s : State) (x : Status) : State := { s with status := x }

/-- Replaces the decoder flags (R23). -/
def State.setDecoder (s : State) (x : Decoder) : State := { s with decoder := x }

/-- Replaces the header (R24). -/
def State.setHeader (s : State) (x : Header) : State := { s with header := x }

/-- Replaces the control bits (R25). -/
def State.setControl (s : State) (x : Control) : State := { s with control := x }

/-- Replaces the transfer engine's registers and flags (R26 to R32). -/
def State.setTransfer (s : State) (x : Transfer) : State := { s with transfer := x }

/-- Replaces the interrupt sources and line (R33 to R35). -/
def State.setIrq (s : State) (x : Irq) : State := { s with irq := x }

/-- Replaces the ring contents (R36). -/
def State.setRing (s : State) (m : Memory) : State := { s with ring := m }

/-- Replaces both FIFOs (R37). -/
def State.setFifos (s : State) (c t : Fifo) : State := { s with cmdfifo := c, statfifo := t }

/-- Sets the stopwatch (R38). -/
def State.setStopwatch (s : State) (n : BitVec 12) : State := { s with stopwatch := n }

/-- Replaces the recorded input still to be performed. -/
def State.setInput (s : State) (bs : List Byte) : State := { s with input := bs }

/-- Records what the transaction returns (R13). -/
def State.respond (s : State) (r : Response) : State := { s with response := r }

/-- Records a port call or a diagnostic, after those recorded before it (R15, R68). -/
def State.emit (s : State) (e : Event) : State := { s with events := s.events ++ [e] }

/-- Counts one more free ring draw (R192). -/
def State.countDraw (s : State) : State := { s with draws := s.draws + 1 }

/-! ### The ring buffer -/

/-- The byte of a memory at an address; 0x00 where none is listed (R36). -/
def Memory.read : Memory → Nat → Byte
  | [], _ => 0
  | (k, b) :: m, a => if k = a then b else Memory.read m a

/-- The cells of consecutive bytes from address `a` on, less those holding 0x00. -/
def Memory.cells : Nat → List Byte → Memory
  | _, [] => []
  | a, b :: bs => if b = 0 then Memory.cells (a + 1) bs else (a, b) :: Memory.cells (a + 1) bs

/-- Writes consecutive bytes from address `a` on, without wrap. -/
def Memory.writeRun (a : Nat) (bs : List Byte) (m : Memory) : Memory :=
  m.filter (fun c => decide (c.1 < a)) ++ Memory.cells a bs ++ m.filter (fun c => decide (a + bs.length ≤ c.1))

/-- `MemWriteBytes(a, bytes)` of R55: byte `i` goes to `(a + i) & 0x3FFF`, in order. Of a list longer than the ring only
the last 16384 bytes remain, so the others are skipped; the rest is a run up to the top of the window and a run from 0. -/
def Memory.writeBytes (a : Nat) (bs : List Byte) (m : Memory) : Memory :=
  let skip := bs.length - ringSize
  let start := (a + skip) % ringSize
  let kept := bs.drop skip
  Memory.writeRun 0 (kept.drop (ringSize - start)) (Memory.writeRun start (kept.take (ringSize - start)) m)

/-- A whole ring from a byte for every address, used for the free draw of R192. -/
def Memory.ofDraw (f : Nat → Byte) : Memory := Memory.cells 0 ((List.range ringSize).map f)

/-- `RB[a & 0x3FFF]` (R15, R49). -/
def State.ringByte (s : State) (a : Nat) : Byte := Memory.read s.ring (a % ringSize)

/-- `MemRead(a, 2)`: the big-endian word at `a`, each byte address wrapping separately (R53, R55, R58). -/
def State.ringWord (s : State) (a : Nat) : Word := s.ringByte a ++ s.ringByte (a + 1)

/-- `MemWriteBytes(a, bytes)` on the ring (R55). -/
def State.writeRing (s : State) (a : Nat) (bs : List Byte) : State := s.setRing (Memory.writeBytes a bs s.ring)

/-! ### The interrupt line -/

/-- The aggregate of R177: the decoder and transfer sources; the command source is not in it (R34). -/
def Irq.aggregate (q : Irq) : Bool :=
  (q.decoder.enable && q.decoder.pending) || (q.transfer.enable && q.transfer.pending)

/-- `poll()` (R177): drives the line to the aggregate, with one port call even when the level does not change. -/
def driveLine (s : State) : State :=
  let p := s.irq.aggregate
  (s.emit (if p then .irqRaise else .irqLower)).setIrq { s.irq with line := p }

/-- The interrupt-line name a port call carries (R177, R178). -/
def Event.lineName : Event → Option String
  | .irqRaise | .irqLower => some Config.irqLine
  | .wramWrite _ _ | .prgWrite _ _ | .pcmWrite8 _ _ | .imageRead _ _ _ | .diag _ _ => none

/-- `publish()` (R16): the point where the source refreshes the register images, which here are functions of the state
(`ownerImage`, `hostImage`), so nothing changes. -/
def publish (s : State) : State := s

/-! ### The register window -/

/-- `next(k)` of R86: COMIN and SBOUT leave the latch, STAT3 and RESET set it to 0, every other slot advances it. -/
def nextSlot (k : Slot) : Slot := if k = 0 then k else if k = 15 then 0 else k + 1

/-- A recorded register-window selector is an access only where its slot is the current latch; otherwise the transaction
is refused before it runs (R83, R84, R175). -/
def atSlot (k : Slot) (s : State) (r : Result) : Result :=
  if s.regfile.address = k then r else .refused .unknownTransaction

/-- `regRead()` at slot `k` (R85): the value is computed first, then the slot's effect, then the latch advances. -/
def windowRead (k : Slot) (value : State → Byte) (effect : State → State) (s : State) : Result :=
  atSlot k s (.next (((effect s).setLatch (nextSlot k)).respond (.u8 (value s))))

/-- `regWrite(d)` at slot `k` (R85): the slot body runs, then the latch advances; nothing is returned. -/
def windowWrite (k : Slot) (body : State → State) (s : State) : Result :=
  atSlot k s (.next (((body s).setLatch (nextSlot k)).respond .none))

/-- A transaction that returns nothing. -/
def finish (s : State) : Result := .next (s.respond .none)

/-- A transaction that returns `r`. -/
def answer (r : Response) (s : State) : Result := .next (s.respond r)

/-! ### Resets -/

/-- `resetSubstates()` (R123): status, transfer, the three interrupt sources, control, decoder and header take their
power-on values. The line, the latch, the ring, the FIFOs and the stopwatch are not touched. -/
def resetSubstates (s : State) : State :=
  ((((((s.setStatus State.reset.status).setTransfer State.reset.transfer).setIrq
    { decoder := idleSource, transfer := idleSource, command := idleSource, line := s.irq.line }).setControl
    State.reset.control).setDecoder State.reset.decoder).setHeader State.reset.header)

/-! ### Fetching the next transaction -/

/-- The next recorded transaction with the input after it; `none` where nothing has been issued. -/
def fetch (s : State) : Option (Except DecodeError (Instr × List Byte)) :=
  match s.input with
  | [] => none
  | b :: bs => some (decode (b :: bs))

/-- How a step stops on bytes that are no transaction (R84; assumption log 4 and 5). -/
def stopUndecoded : DecodeError → Result
  | .reserved _ => .refused .unknownTransaction
  | .truncated => .fault .inputTruncated
  | .badKind _ => .refused .unknownTrackKind

/-- What a step does when nothing has been issued: the block does nothing on its own (R195). -/
def idle (s : State) : Result := .next s

/-- Places one recorded transaction in front of the input. A register-window selector is an access only at its own latch
value (R83), so for one the latch is set to its slot (assumption log 14). -/
def placeTransaction (bs : List Byte) (slot : Option Slot) (s : State) : State :=
  match slot with
  | some k => (s.setInput (bs ++ s.input)).setLatch k
  | none => s.setInput (bs ++ s.input)

/-- The code R175 gives a refusal; the model's own two have none. -/
def Refusal.code : Refusal → Option Nat
  | .unknownTransaction => some 1
  | .unsupportedSubheaderRead => some 2
  | .timecodeOutOfRange => some 3
  | .shortImageRead => some 4
  | .unknownTrackKind => none
  | _ => none

end Sys2Proof.Machine
end

