-- ==== Sys2Proof/Machine/Operands.lean ====
section
/-! DEFINITION. Operand forms and the values of the readable registers: byte halves of the counters (R54), the IFSTAT and
STAT layouts (R43, R44), the mode register and the register images (R45, R167), the timecode arithmetic of a DECODE
operand (R127 to R129) and the disc-image reader (R138). -/

namespace Sys2Proof.Machine

/-- Bits 7:0 of a 16-bit counter. -/
def lowByte (w : Word) : Byte := w.extractLsb' 0 8

/-- Bits 15:8 of a 16-bit counter. -/
def highByte (w : Word) : Byte := w.extractLsb' 8 8

/-- A 16-bit counter with bits 7:0 replaced (R108, R110, R114, R119). -/
def setLowByte (w : Word) (d : Byte) : Word := highByte w ++ d

/-- A 16-bit counter with bits 15:8 replaced (R111, R115, R120). -/
def setHighByte (w : Word) (d : Byte) : Word := d ++ lowByte w

/-- Bits 7:0 of the length (R91). -/
def lengthLow (n : BitVec 12) : Byte := n.extractLsb' 0 8

/-- Bits 11:8 of the length. -/
def lengthHigh (n : BitVec 12) : BitVec 4 := n.extractLsb' 8 4

/-- The length with bits 7:0 replaced (R108). -/
def setLengthLow (n : BitVec 12) (d : Byte) : BitVec 12 := lengthHigh n ++ d

/-- The length with bits 11:8 replaced (R109, R113). -/
def setLengthHigh (n : BitVec 12) (h : BitVec 4) : BitVec 12 := h ++ lengthLow n

/-- The byte whose bits 7 down to 0 are the eight flags. -/
def byteOfBits (b7 b6 b5 b4 b3 b2 b1 b0 : Bool) : Byte :=
  BitVec.ofBool b7 ++ BitVec.ofBool b6 ++ BitVec.ofBool b5 ++ BitVec.ofBool b4 ++ BitVec.ofBool b3 ++
    BitVec.ofBool b2 ++ BitVec.ofBool b1 ++ BitVec.ofBool b0

/-- IFSTAT, every flag active low (R43, R90). -/
def ifstatValue (s : State) : Byte :=
  byteOfBits false (!s.irq.transfer.pending) (!s.irq.decoder.pending) true (!s.transfer.busy) (!s.status.busy)
    (!s.transfer.active) (!s.status.active)

/-- DBCH as read: `{0000, length[11:8]}` (R92). -/
def dbchValue (s : State) : Byte := (lengthHigh s.transfer.length).zeroExtend 8

/-- STAT2: `{0000, mode, form, 00}` (R44, R104). -/
def stat2Value (s : State) : Byte := byteOfBits false false false false s.decoder.mode s.decoder.form false false

/-- STAT3: `{~valid, 0000000}` (R44, R105). -/
def stat3Value (s : State) : Byte := byteOfBits (!s.decoder.valid) false false false false false false false

/-- The host-visible mode register `{completed, ready, 000, destination, 0000, address}` (R45, R158). -/
def modeRegister (s : State) : Word :=
  BitVec.ofBool s.transfer.completed ++ BitVec.ofBool s.transfer.ready ++ (0 : BitVec 3) ++ s.transfer.destination ++
    (0 : BitVec 4) ++ s.regfile.address

/-- The byte of the mode register the host side sees (R159). -/
def hostModeByte (p : HostModeByte) (m : Word) : Byte :=
  match p with
  | .high => highByte m
  | .low => lowByte m

/-- The stopwatch as a 16-bit port (R165). -/
def stopwatchValue (s : State) : Word := s.stopwatch.zeroExtend 16

/-- The owning CPU's register image at a bus offset (R167). -/
def ownerImage (s : State) (offset : Nat) : Option Word :=
  if offset = 0x4 then some (modeRegister s) else if offset = 0xC then some (stopwatchValue s) else none

/-- The host CPU's register image at a bus offset; its mode entry is one byte (R167). -/
def hostImage (s : State) (offset : Nat) : Option Word :=
  if offset = 0x4 then some ((hostModeByte Config.mainModeByte (modeRegister s)).zeroExtend 16)
  else if offset = 0xC then some (stopwatchValue s)
  else none

/-- `msf(n)` (R127) for a frame count `n` that is not negative. -/
def msf (n : Nat) : Nat × Nat × Nat := (n / (60 * 75), (n / 75) % 60, n % 75)

/-- `bcd(v)` for `0 <= v <= 99` (R129). -/
def bcd (v : Nat) : Byte := BitVec.ofNat 8 ((v / 10) <<< 4 ||| (v % 10))

/-- The header a decode tick latches (R125 steps 2 and 3, R127, R129, R130). -/
def headerFor (n : Nat) (kind : TrackKind) : Header :=
  let t := msf n
  { minute := bcd t.1, second := bcd t.2.1, frame := bcd t.2.2,
    mode := match kind with
      | .audio => 0x00
      | .data => 0x01 }

/-- The four header bytes in ring order (R56). -/
def headerBytes (h : Header) : List Byte := [h.minute, h.second, h.frame, h.mode]

/-- What the disc-image reader returns for `len` bytes at `offset` of a track: fewer where the offset is negative or the
image ends, none where the handle names no track (R138; assumption log 8). -/
def imageBytes (disc : List ImageTrack) (track : Nat) (offset : Int) (len : Nat) : List Byte :=
  match disc[track]? with
  | none => []
  | some t => if offset < 0 then [] else (t.image.drop offset.toNat).take len

/-- `ImageRead(track, offset, len)` (R15, R138): the bytes and the state that records the call; `none` on a short read. -/
def imageRead (track : Nat) (offset : Int) (len : Nat) (s : State) : Option (List Byte × State) :=
  let bs := imageBytes s.disc track offset len
  if bs.length = len then some (bs, s.emit (.imageRead track offset len)) else none

/-- `checkSync` and `checkHeader` of R137: reads as many bytes as expected and records a diagnostic where they differ. -/
def checkImage (kind : DiagKind) (track : Nat) (offset : Int) (expected : List Byte) (lba : Int) (s : State) :
    Option State :=
  match imageRead track offset expected.length s with
  | none => none
  | some (bs, s1) => some (if bs = expected then s1 else s1.emit (.diag kind lba))

/-- `readPayload` for a BIN/CUE track (R135, R137). -/
def readBinCue (lba : Int) (track : Nat) (sectorSize : Nat) (s : State) : Option (List Byte × State) :=
  let start : Int := lba * sectorSize + 16
  match checkImage .syncMismatch track (start - 16) syncPattern lba s with
  | none => none
  | some s1 =>
    match checkImage .headerMismatch track (start - 4) [s.header.minute, s.header.second, s.header.frame, 0x01] lba s1 with
    | none => none
    | some s2 => imageRead track start payloadSize s2

/-- `readPayload(lba, track)` (R135): ISO reads directly (R136), BIN/CUE validates first (R137). -/
def readPayload (lba : Int) (track : Nat) (s : State) : Option (List Byte × State) :=
  match s.disc[track]? with
  | none => none
  | some t =>
    match t.layout with
    | .iso => imageRead track (lba * payloadSize) payloadSize s
    | .binCue => readBinCue lba track t.sectorSize s

end Sys2Proof.Machine
end

