-- ==== Sys2Proof/Machine/Flags.lean ====
section
/-! DEFINITION. The flag computations shared by the transactions: the transfer engine's `start`, `stop`, `complete` and
`consume` (R142 to R145), the recomputation of the decoder's mode and form (R118), and the moving of one word by
`hostRead` (R146) and `dma` (R147). -/

namespace Sys2Proof.Machine

/-- Sets the transfer interrupt's pending bit. -/
def setTransferPending (s : State) (b : Bool) : State :=
  s.setIrq { s.irq with transfer := { s.irq.transfer with pending := b } }

/-- Sets the decoder interrupt's pending bit. -/
def setDecoderPending (s : State) (b : Bool) : State :=
  s.setIrq { s.irq with decoder := { s.irq.decoder with pending := b } }

/-- Destinations 2 and 3 are read by the host (R26, R142). -/
def isHostDestination (d : BitVec 3) : Bool := d = 2 || d = 3

/-- `start()` (R142). -/
def startTransfer (s : State) : State :=
  if s.transfer.enable then
    let t := { s.transfer with
      active := true, busy := true, ready := isHostDestination s.transfer.destination, completed := false }
    driveLine (publish (setTransferPending (s.setTransfer t) false))
  else s

/-- `stop()` (R143): it neither polls nor clears `completed`. -/
def stopTransfer (s : State) : State :=
  publish (s.setTransfer { s.transfer with active := false, busy := false, ready := false })

/-- `complete()` (R144). -/
def completeTransfer (s : State) : State :=
  let t := { s.transfer with active := false, busy := false, ready := false, completed := true }
  driveLine (publish (setTransferPending (s.setTransfer t) true))

/-- `consume()` (R145): the compare is on the integer result, before it is stored. -/
def consume (s : State) : State :=
  let n : Int := s.transfer.length.toNat - 2
  if n ≤ 0 then completeTransfer (s.setTransfer { s.transfer with length := 0 })
  else s.setTransfer { s.transfer with length := BitVec.ofInt 12 n }

/-- `source + 2 mod 0x4000` (R146, R147, R152). -/
def advanceSource (w : Word) : Word := BitVec.ofNat 16 ((w.toNat + 2) % ringSize)

/-- The transfer word at `source & 0x3FFF` (R146, R147). -/
def transferWord (s : State) : Word := s.ringWord s.transfer.source.toNat

/-- `hostRead()` (R146): the word returned and the state after it; 0xFFFF and no change where `ready` is 0. -/
def hostRead (s : State) : Word × State :=
  if s.transfer.ready then
    (transferWord s, consume (s.setTransfer { s.transfer with source := advanceSource s.transfer.source }))
  else (0xFFFF, s)

/-- The port writes of one DMA word (R148, R149, R150): working RAM, program RAM, or two bytes to PCM wave RAM, the high
one first. -/
def portWrite (d : BitVec 3) (a : Addr) (w : Word) (s : State) : State :=
  if d = 7 then s.emit (.wramWrite a w)
  else if d = 5 then s.emit (.prgWrite a w)
  else (s.emit (.pcmWrite8 a (highByte w))).emit (.pcmWrite8 (a + 1) (lowByte w))

/-- By how much `address` advances per word: 4 for destination 4, else 2 (R147, R150), modulo 2^19 (R152). -/
def addressAdvance (d : BitVec 3) : Addr := if d = 4 then 4 else 2

/-- Destinations 4, 5 and 7 are moved by `dma()` (R147). -/
def isDmaDestination (d : BitVec 3) : Bool := d = 4 || d = 5 || d = 7

/-- `dma()` (R147): nothing where no transfer is active or the destination is outside {4, 5, 7} (R151). -/
def dmaWord (s : State) : State :=
  let d := s.transfer.destination
  if s.transfer.active && isDmaDestination d then
    let s1 := portWrite d s.transfer.address (transferWord s) s
    let t := { s1.transfer with
      source := advanceSource s1.transfer.source, address := s1.transfer.address + addressAdvance d }
    publish (consume (s1.setTransfer t))
  else s

/-- `recomputeModeForm()` (R118). -/
def recomputeModeForm (s : State) : State :=
  s.setDecoder { s.decoder with
    mode := s.control.mode, form := s.control.form && !s.control.autoCorrection }

end Sys2Proof.Machine
end

