-- ==== Sys2Proof/Machine/BusPorts.lean ====
section
/-! DEFINITION. The bus ports and the stopwatch (44_bus_ports.md, R158 to R166). -/

namespace Sys2Proof.Machine

/-- MODERD (R158). -/
def execModerd (s : State) : Result := answer (.u16 (modeRegister s)) s

/-- MODEWL (R160): bits 7:4 of the byte are dropped. -/
def execModewl (d : Byte) (s : State) : Result := finish (s.setLatch (d.extractLsb' 0 4))

/-- MODEWH (R161): stores the destination and nothing else. -/
def execModewh (d : Byte) (s : State) : Result :=
  finish (s.setTransfer { s.transfer with destination := d.extractLsb' 0 3 })

/-- MODERDH (R159). -/
def execModerdh (s : State) : Result := answer (.u8 (hostModeByte Config.mainModeByte (modeRegister s))) s

/-- DMAARD (R163): `address >> 3`. -/
def execDmaard (s : State) : Result := answer (.u16 (s.transfer.address.extractLsb' 3 16)) s

/-- DMAAWR (R162): `v << 3`. -/
def execDmaawr (v : Word) (s : State) : Result :=
  finish (s.setTransfer { s.transfer with address := v ++ (0 : BitVec 3) })

/-- HOSTRD (R164, R146). -/
def execHostrd (s : State) : Result :=
  let r := hostRead s
  answer (.u16 r.1) r.2

/-- SWRD (R165). -/
def execSwrd (s : State) : Result := answer (.u16 (stopwatchValue s)) s

/-- SWWR (R166): any write clears the counter. -/
def execSwwr (_v : Word) (s : State) : Result := finish (s.setStopwatch 0)

end Sys2Proof.Machine
end

