-- ==== Sys2Proof/Machine/EntryPoints.lean ====
section
/-! DEFINITION. The entry points: the decode pipeline (42_decoder.md, R124 to R140), `dma` (R147), the cadence entry points
(R168, R169) and the two resets that are transactions of their own (R191, R192). -/

namespace Sys2Proof.Machine

/-- Steps 2 to 4 of a decode tick (R125): the header is latched, `valid` and the decoder interrupt are set, the line is
polled. `n` is `lba + 150`. -/
def latchHeader (n : Nat) (kind : TrackKind) (s : State) : State :=
  let s1 := s.setHeader (headerFor n kind)
  driveLine (setDecoderPending (s1.setDecoder { s1.decoder with valid := true }) true)

/-- A counter one raw sector on, modulo 2^16 (R133). -/
def advanceSector (w : Word) : Word := w + BitVec.ofNat 16 sectorAdvance

/-- `pointer & 0x3FFF`, where the header of the current sector goes (R133). -/
def headerAddress (s : State) : Nat := s.transfer.pointer.toNat % ringSize

/-- Step 6 of a decode tick (R133): both counters advance by 2352, then the header goes to `pointer & 0x3FFF`. -/
def commitHeader (s : State) : State :=
  let s1 := s.setTransfer { s.transfer with
    pointer := advanceSector s.transfer.pointer, target := advanceSector s.transfer.target }
  s1.writeRing (headerAddress s1) (headerBytes s1.header)

/-- Step 8 of a decode tick (R135): the payload goes 4 bytes past the header; a short image read is refused (R138). -/
def copyPayload (lba : Int) (track : Nat) (s : State) : Result :=
  match readPayload lba track s with
  | none => .refused .shortImageRead
  | some (payload, s1) => finish (s1.writeRing (headerAddress s1 + 4) payload)

/-- Steps 5 to 8 of a decode tick (R125, R132, R134, R139). -/
def commitSector (lba : Int) (track : Nat) (s : State) : Result :=
  if s.control.writeRequest then
    let s1 := commitHeader s
    if lba < 0 then finish s1
    else if s1.header.mode = 0x01 then copyPayload lba track s1
    else finish s1
  else finish s

/-- DECODE (R124, R125): nothing where the decoder is disabled (R126); refused before any change where the timecode is
outside its domain (R128). -/
def execDecode (lba : Int) (kind : TrackKind) (track : Nat) (s : State) : Result :=
  if s.decoder.enable then
    let n := lba + pregapFrames
    if n < 0 ∨ timecodeFrames ≤ n then .refused .timecodeOutOfRange
    else commitSector lba track (latchHeader n.toNat kind s)
  else finish s

/-- STEP (R168): the stopwatch counts one, whatever `cycles`. -/
def execStep (_cycles : Nat) (s : State) : Result := finish (publish (s.setStopwatch (s.stopwatch + 1)))

/-- DMA (R147, R170). -/
def execDma (s : State) : Result := finish (dmaWord s)

/-- POLL (R169). -/
def execPoll (s : State) : Result := finish (driveLine s)

/-- SYSRESET (R192): every entity is reinitialised, the ring takes the next free draw, the line is polled. -/
def execSysReset (s : State) : Result :=
  let s1 := resetSubstates (s.setLatch 0)
  let s2 := ((s1.setRing (Memory.ofDraw (Config.ringDraw s1.draws))).countDraw.setFifos emptyFifo emptyFifo).setStopwatch 0
  finish (driveLine s2)

/-- CONSTRUCT (R191): the whole state of the block is replaced, the line starts low with no port call. The model's own
fields are not the block's and stay (assumption log 13). -/
def execConstruct (s : State) : Result :=
  let s1 := resetSubstates (s.setLatch 0)
  let s2 := ((s1.setIrq { s1.irq with line := false }).setRing []).setFifos emptyFifo emptyFifo
  finish (s2.setStopwatch 0)

end Sys2Proof.Machine
end

