-- ==== Sys2Proof/Machine/RegisterReads.lean ====
section
/-! DEFINITION. The sixteen read slots of the register window (40_register_reads.md, R89 to R105). -/

namespace Sys2Proof.Machine

/-- RD.COMIN (R89): reads 0xFF; the latch stays at 0. -/
def execRdComin (s : State) : Result := windowRead 0 (fun _ => 0xFF) id s

/-- RD.IFSTAT (R90). -/
def execRdIfstat (s : State) : Result := windowRead 1 ifstatValue id s

/-- RD.DBCL (R91). -/
def execRdDbcl (s : State) : Result := windowRead 2 (fun s => lengthLow s.transfer.length) id s

/-- RD.DBCH (R92). -/
def execRdDbch (s : State) : Result := windowRead 3 dbchValue id s

/-- A read of HEAD0 to HEAD3: header mode answers the field, sub-header mode is refused with no value and no latch
advance (R93 to R97). -/
def headRead (k : Slot) (field : Header → Byte) (s : State) : Result :=
  if s.control.head then atSlot k s (.refused .unsupportedSubheaderRead)
  else windowRead k (fun s => field s.header) id s

/-- RD.HEAD0 (R93). -/
def execRdHead0 (s : State) : Result := headRead 4 Header.minute s

/-- RD.HEAD1 (R94). -/
def execRdHead1 (s : State) : Result := headRead 5 Header.second s

/-- RD.HEAD2 (R95). -/
def execRdHead2 (s : State) : Result := headRead 6 Header.frame s

/-- RD.HEAD3 (R96). -/
def execRdHead3 (s : State) : Result := headRead 7 Header.mode s

/-- RD.PTL (R98). -/
def execRdPtl (s : State) : Result := windowRead 8 (fun s => lowByte s.transfer.pointer) id s

/-- RD.PTH (R99). -/
def execRdPth (s : State) : Result := windowRead 9 (fun s => highByte s.transfer.pointer) id s

/-- RD.WAL (R100). -/
def execRdWal (s : State) : Result := windowRead 10 (fun s => lowByte s.transfer.target) id s

/-- RD.WAH (R101). -/
def execRdWah (s : State) : Result := windowRead 11 (fun s => highByte s.transfer.target) id s

/-- RD.STAT0 (R102). -/
def execRdStat0 (s : State) : Result := windowRead 12 (fun _ => 0x80) id s

/-- RD.STAT1 (R103). -/
def execRdStat1 (s : State) : Result := windowRead 13 (fun _ => 0x00) id s

/-- RD.STAT2 (R104). -/
def execRdStat2 (s : State) : Result := windowRead 14 stat2Value id s

/-- The effect of a STAT3 read (R105): clears `valid` and the decoder interrupt, then polls. -/
def acknowledgeDecoder (s : State) : State :=
  driveLine (setDecoderPending (s.setDecoder { s.decoder with valid := false }) false)

/-- RD.STAT3 (R105): the value is the one before the clear. -/
def execRdStat3 (s : State) : Result := windowRead 15 stat3Value acknowledgeDecoder s

end Sys2Proof.Machine
end

