-- ==== Sys2Proof/Machine/RegisterWrites.lean ====
section
/-! DEFINITION. The sixteen write slots of the register window (41_register_writes.md, R106 to R123). -/

namespace Sys2Proof.Machine

/-- WR.SBOUT (R106): no effect, not even on the latch. -/
def execWrSbout (_d : Byte) (s : State) : Result := windowWrite 0 id s

/-- The seven fields an IFCTRL byte writes (R40, R107); bit 7 is ignored. -/
def writeIfctrlBits (d : Byte) (s : State) : State :=
  (((s.setStatus { s.status with enable := d.getLsbD 0, wait := d.getLsbD 2 }).setTransfer
    { s.transfer with enable := d.getLsbD 1, wait := d.getLsbD 3 }).setControl
    { s.control with commandBreak := d.getLsbD 4 }).setIrq
    { s.irq with
      decoder := { s.irq.decoder with enable := d.getLsbD 5 },
      transfer := { s.irq.transfer with enable := d.getLsbD 6 } }

/-- The body of an IFCTRL write (R107): the fields, then `stop()` where transfer output is disabled, then the poll. -/
def ifctrlBody (d : Byte) (s : State) : State :=
  let s1 := writeIfctrlBits d s
  driveLine (if s1.transfer.enable then s1 else stopTransfer s1)

/-- WR.IFCTRL (R107). -/
def execWrIfctrl (d : Byte) (s : State) : Result := windowWrite 1 (ifctrlBody d) s

/-- WR.DBCL (R108). -/
def execWrDbcl (d : Byte) (s : State) : Result :=
  windowWrite 2 (fun s => s.setTransfer { s.transfer with length := setLengthLow s.transfer.length d }) s

/-- WR.DBCH (R109): bits 7:4 of the byte are ignored. -/
def execWrDbch (d : Byte) (s : State) : Result :=
  windowWrite 3
    (fun s => s.setTransfer { s.transfer with length := setLengthHigh s.transfer.length (d.extractLsb' 0 4) }) s

/-- WR.DACL (R110). -/
def execWrDacl (d : Byte) (s : State) : Result :=
  windowWrite 4 (fun s => s.setTransfer { s.transfer with source := setLowByte s.transfer.source d }) s

/-- WR.DACH (R111). -/
def execWrDach (d : Byte) (s : State) : Result :=
  windowWrite 5 (fun s => s.setTransfer { s.transfer with source := setHighByte s.transfer.source d }) s

/-- WR.DTRG (R112). -/
def execWrDtrg (_d : Byte) (s : State) : Result := windowWrite 6 startTransfer s

/-- The body of a DTACK write (R113). -/
def dtackBody (s : State) : State :=
  let s1 := setTransferPending s false
  driveLine (s1.setTransfer { s1.transfer with length := setLengthHigh s1.transfer.length 0 })

/-- WR.DTACK (R113). -/
def execWrDtack (_d : Byte) (s : State) : Result := windowWrite 7 dtackBody s

/-- WR.WAL (R114). -/
def execWrWal (d : Byte) (s : State) : Result :=
  windowWrite 8 (fun s => s.setTransfer { s.transfer with target := setLowByte s.transfer.target d }) s

/-- WR.WAH (R115). -/
def execWrWah (d : Byte) (s : State) : Result :=
  windowWrite 9 (fun s => s.setTransfer { s.transfer with target := setHighByte s.transfer.target d }) s

/-- The body of a CTRL0 write (R41, R116). -/
def ctrl0Body (d : Byte) (s : State) : State :=
  recomputeModeForm ((s.setDecoder { s.decoder with enable := d.getLsbD 7 }).setControl
    { s.control with
      ctrl0bit6 := d.getLsbD 6, errorCorrection := d.getLsbD 5, autoCorrection := d.getLsbD 4,
      erasureRequest := d.getLsbD 3, writeRequest := d.getLsbD 2, qCorrection := d.getLsbD 1,
      pCorrection := d.getLsbD 0 })

/-- WR.CTRL0 (R116). -/
def execWrCtrl0 (d : Byte) (s : State) : Result := windowWrite 10 (ctrl0Body d) s

/-- The body of a CTRL1 write (R42, R117). -/
def ctrl1Body (d : Byte) (s : State) : State :=
  recomputeModeForm (s.setControl
    { s.control with
      syncInterrupt := d.getLsbD 7, syncDetect := d.getLsbD 6, descramble := d.getLsbD 5, cowren := d.getLsbD 4,
      mode := d.getLsbD 3, form := d.getLsbD 2, mbckrq := d.getLsbD 1, head := d.getLsbD 0 })

/-- WR.CTRL1 (R117). -/
def execWrCtrl1 (d : Byte) (s : State) : Result := windowWrite 11 (ctrl1Body d) s

/-- WR.PTL (R119). -/
def execWrPtl (d : Byte) (s : State) : Result :=
  windowWrite 12 (fun s => s.setTransfer { s.transfer with pointer := setLowByte s.transfer.pointer d }) s

/-- WR.PTH (R120). -/
def execWrPth (d : Byte) (s : State) : Result :=
  windowWrite 13 (fun s => s.setTransfer { s.transfer with pointer := setHighByte s.transfer.pointer d }) s

/-- WR.CTRL2 (R121): no effect but the latch. -/
def execWrCtrl2 (_d : Byte) (s : State) : Result := windowWrite 14 id s

/-- WR.RESET (R122): the sub-states, `stop()`, the poll; the latch becomes 0. -/
def execWrReset (_d : Byte) (s : State) : Result :=
  windowWrite 15 (fun s => driveLine (stopTransfer (resetSubstates s))) s

end Sys2Proof.Machine
end

