-- ==== Sys2Proof/Machine/Dispatch.lean ====
section
/-! DEFINITION. One arm per transaction, each one direct call of its meaning. -/

namespace Sys2Proof.Machine

def exec (i : Instr) (s : State) : Host.Outcome State Fault Refusal :=
  match i with
  | .rdComin => Sys2Proof.Machine.execRdComin s
  | .rdIfstat => Sys2Proof.Machine.execRdIfstat s
  | .rdDbcl => Sys2Proof.Machine.execRdDbcl s
  | .rdDbch => Sys2Proof.Machine.execRdDbch s
  | .rdHead0 => Sys2Proof.Machine.execRdHead0 s
  | .rdHead1 => Sys2Proof.Machine.execRdHead1 s
  | .rdHead2 => Sys2Proof.Machine.execRdHead2 s
  | .rdHead3 => Sys2Proof.Machine.execRdHead3 s
  | .rdPtl => Sys2Proof.Machine.execRdPtl s
  | .rdPth => Sys2Proof.Machine.execRdPth s
  | .rdWal => Sys2Proof.Machine.execRdWal s
  | .rdWah => Sys2Proof.Machine.execRdWah s
  | .rdStat0 => Sys2Proof.Machine.execRdStat0 s
  | .rdStat1 => Sys2Proof.Machine.execRdStat1 s
  | .rdStat2 => Sys2Proof.Machine.execRdStat2 s
  | .rdStat3 => Sys2Proof.Machine.execRdStat3 s
  | .wrSbout d => Sys2Proof.Machine.execWrSbout d s
  | .wrIfctrl d => Sys2Proof.Machine.execWrIfctrl d s
  | .wrDbcl d => Sys2Proof.Machine.execWrDbcl d s
  | .wrDbch d => Sys2Proof.Machine.execWrDbch d s
  | .wrDacl d => Sys2Proof.Machine.execWrDacl d s
  | .wrDach d => Sys2Proof.Machine.execWrDach d s
  | .wrDtrg d => Sys2Proof.Machine.execWrDtrg d s
  | .wrDtack d => Sys2Proof.Machine.execWrDtack d s
  | .wrWal d => Sys2Proof.Machine.execWrWal d s
  | .wrWah d => Sys2Proof.Machine.execWrWah d s
  | .wrCtrl0 d => Sys2Proof.Machine.execWrCtrl0 d s
  | .wrCtrl1 d => Sys2Proof.Machine.execWrCtrl1 d s
  | .wrPtl d => Sys2Proof.Machine.execWrPtl d s
  | .wrPth d => Sys2Proof.Machine.execWrPth d s
  | .wrCtrl2 d => Sys2Proof.Machine.execWrCtrl2 d s
  | .wrReset d => Sys2Proof.Machine.execWrReset d s
  | .moderd => Sys2Proof.Machine.execModerd s
  | .modewl d => Sys2Proof.Machine.execModewl d s
  | .modewh d => Sys2Proof.Machine.execModewh d s
  | .moderdh => Sys2Proof.Machine.execModerdh s
  | .dmaard => Sys2Proof.Machine.execDmaard s
  | .dmaawr v => Sys2Proof.Machine.execDmaawr v s
  | .hostrd => Sys2Proof.Machine.execHostrd s
  | .swrd => Sys2Proof.Machine.execSwrd s
  | .swwr v => Sys2Proof.Machine.execSwwr v s
  | .decodeSector lba kind track => Sys2Proof.Machine.execDecode lba kind track s
  | .stepTick cycles => Sys2Proof.Machine.execStep cycles s
  | .dma => Sys2Proof.Machine.execDma s
  | .poll => Sys2Proof.Machine.execPoll s
  | .sysReset => Sys2Proof.Machine.execSysReset s
  | .construct => Sys2Proof.Machine.execConstruct s

end Sys2Proof.Machine
end

