-- ==== Sys2Proof/Machine/Step.lean ====
section
/-! DEFINITION. One step: the next recorded transaction is fetched and performed (R12, R67). And the place where the host
puts an opcode-table word. -/

namespace Sys2Proof.Machine

/-- One transaction of the environment: nothing where none has been issued, the decoded transaction with the input moved
past it, or the stop of bytes that are no transaction. -/
def step (s : State) : Host.Outcome State Fault Refusal :=
  match fetch s with
  | none => idle s
  | some (.error e) => stopUndecoded e
  | some (.ok (i, rest)) => exec i (s.setInput rest)

/-- The state with the transaction of an opcode-table word first in the recorded input, and, for a register-window
selector, the latch at its slot (R83; assumption log 14). -/
def State.withFetchWord (s : State) (nbits w : Nat) : State :=
  placeTransaction (tableTransaction nbits w) ((decodeTableWord nbits w).bind slotOf) s

end Sys2Proof.Machine
end

