-- ==== Sys2Proof/Machine/Text.lean ====
section
/-! DEFINITION. Transactions as program text writes them (R80), their resolution against the latch (R83), the
pseudo-transactions (R81) and the printer of R80. A text access of the register window names no slot: the slot is the
latch at the moment it is performed. -/

namespace Sys2Proof.Machine

/-- One line of program text (R80). -/
inductive TextLine where
  | regrd
  | regwr (d : Byte)
  | other (i : Instr)
  deriving DecidableEq, Repr

/-- The recorded transaction a text line becomes with the latch at `k` (R83). -/
def TextLine.resolve (k : Slot) : TextLine → Instr
  | .regrd => readRow k
  | .regwr d => writeRow k d
  | .other i => i

/-- Performs one text line (R83). -/
def performText (t : TextLine) (s : State) : Result := exec (t.resolve s.regfile.address) s

/-- Performs text lines in order, stopping at the first fault or refusal (R67, R84). -/
def runText : List TextLine → State → Result
  | [], s => .next s
  | t :: ts, s =>
    match performText t s with
    | .next s1 => runText ts s1
    | .fault r => .fault r
    | .refused r => .refused r

/-- `MODEWL #k`. -/
def selectSlot (k : Slot) : TextLine := .other (.modewl (k.zeroExtend 8))

/-- `RDREG <slot>` (R81). -/
def rdReg (k : Slot) : List TextLine := [selectSlot k, .regrd]

/-- `WRREG <slot>, #d8` (R81). -/
def wrReg (k : Slot) (d : Byte) : List TextLine := [selectSlot k, .regwr d]

/-- `SETDEST #d` (R81). -/
def setDest (d : BitVec 3) : List TextLine := [.other (.modewh (d.zeroExtend 8))]

/-- `WRPAIR <H-slot>, #d16`, given the index of the L-slot (R81). -/
def wrPair (k : Slot) (v : Word) : List TextLine := [selectSlot k, .regwr (lowByte v), .regwr (highByte v)]

/-- `RDPAIR <H-slot>`, given the index of the L-slot (R81). -/
def rdPair (k : Slot) : List TextLine := [selectSlot k, .regrd, .regrd]

/-- Names of the read slots (R39). -/
def readSlotName (k : Slot) : String :=
  ["COMIN", "IFSTAT", "DBCL", "DBCH", "HEAD0", "HEAD1", "HEAD2", "HEAD3", "PTL", "PTH", "WAL", "WAH", "STAT0", "STAT1",
    "STAT2", "STAT3"].getD k.toNat ""

/-- Names of the write slots (R39). -/
def writeSlotName (k : Slot) : String :=
  ["SBOUT", "IFCTRL", "DBCL", "DBCH", "DACL", "DACH", "DTRG", "DTACK", "WAL", "WAH", "CTRL0", "CTRL1", "PTL", "PTH",
    "CTRL2", "RESET"].getD k.toNat ""

/-- A hexadecimal digit. -/
def hexDigit (n : Nat) : String :=
  ["0", "1", "2", "3", "4", "5", "6", "7", "8", "9", "A", "B", "C", "D", "E", "F"].getD (n % 16) ""

/-- An 8-bit immediate as `0x..`. -/
def hexByte (d : Byte) : String := "0x" ++ hexDigit (d.toNat / 16) ++ hexDigit d.toNat

/-- A 16-bit immediate as `0x....`. -/
def hexWord (v : Word) : String :=
  "0x" ++ hexDigit (v.toNat / 4096) ++ hexDigit (v.toNat / 256) ++ hexDigit (v.toNat / 16) ++ hexDigit v.toNat

/-- The name of a track kind in text (R80). -/
def kindName : TrackKind → String
  | .audio => "audio"
  | .data => "data"

/-- The printed form of a recorded transaction (R80): a register-window access prints as REGRD or REGWR with the slot
name after it. -/
def printInstr (i : Instr) : String :=
  match i with
  | .moderd => "MODERD"
  | .modewl d => "MODEWL #" ++ hexByte d
  | .modewh d => "MODEWH #" ++ hexByte d
  | .moderdh => "MODERDH"
  | .dmaard => "DMAARD"
  | .dmaawr v => "DMAAWR #" ++ hexWord v
  | .hostrd => "HOSTRD"
  | .swrd => "SWRD"
  | .swwr v => "SWWR #" ++ hexWord v
  | .decodeSector lba kind track => "DECODE #" ++ toString lba ++ ", " ++ kindName kind ++ ", " ++ toString track
  | .stepTick cycles => "STEP #" ++ toString cycles
  | .dma => "DMA"
  | .poll => "POLL"
  | .sysReset => "SYSRESET"
  | .construct => "CONSTRUCT"
  | .rdComin | .rdIfstat | .rdDbcl | .rdDbch | .rdHead0 | .rdHead1 | .rdHead2 | .rdHead3 | .rdPtl | .rdPth | .rdWal
  | .rdWah | .rdStat0 | .rdStat1 | .rdStat2 | .rdStat3 => "REGRD ; " ++ readSlotName (selSlot (selector i))
  | .wrSbout d | .wrIfctrl d | .wrDbcl d | .wrDbch d | .wrDacl d | .wrDach d | .wrDtrg d | .wrDtack d | .wrWal d
  | .wrWah d | .wrCtrl0 d | .wrCtrl1 d | .wrPtl d | .wrPth d | .wrCtrl2 d | .wrReset d =>
    "REGWR #" ++ hexByte d ++ " ; " ++ writeSlotName (selSlot (selector i))

end Sys2Proof.Machine
end

