-- ==== Sys2Proof/Safety.lean ====
section
/-! DEFINITION. The terms claims are stated in: the invariants of 10_state.md and 43_transfer.md, runs of one transaction
repeated, and what is hidden from every transaction (R46). -/

namespace Sys2Proof.Machine

/-- The ring is in its canonical form. -/
abbrev State.ringCanonical (s : State) : Prop := Memory.wf s.ring

/-- The line is at the level of the aggregate (R35). -/
abbrev State.lineDriven (s : State) : Prop :=
  s.irq.line = ((s.irq.decoder.enable && s.irq.decoder.pending) || (s.irq.transfer.enable && s.irq.transfer.pending))

/-- The transfer flags are in one row of R141's table: `active` and `busy` agree, `ready` only while active, `completed`
only while not active. -/
abbrev State.transferRow (s : State) : Prop :=
  s.transfer.active = s.transfer.busy ∧ (s.transfer.ready = true → s.transfer.active = true) ∧
    (s.transfer.completed = true → s.transfer.active = false)

/-- The decoder's mode and form are what R118 computes from the control bits. -/
abbrev State.modeFormMirror (s : State) : Prop :=
  s.decoder.mode = s.control.mode ∧ s.decoder.form = (s.control.form && !s.control.autoCorrection)

/-- The number two BCD digits spell (R129). -/
def bcdValue (b : Byte) : Nat := 10 * (b.toNat / 16) + b.toNat % 16

/-- Both nibbles of the byte are decimal digits (R129). -/
abbrev isBcd (b : Byte) : Prop := b.toNat / 16 < 10 ∧ b.toNat % 16 < 10

/-- The header holds a timecode in BCD digits and a mode byte 0 or 1 (R24, R96, R127). -/
abbrev State.headerIsTimecode (s : State) : Prop :=
  isBcd s.header.minute ∧ isBcd s.header.second ∧ isBcd s.header.frame ∧ bcdValue s.header.second < 60 ∧
    bcdValue s.header.frame < 75 ∧ (s.header.mode = 0x00 ∨ s.header.mode = 0x01)

/-- What no rule ever changes: the command source (R34), both FIFOs (R37), the status path's `active` and `busy` (R22). -/
abbrev State.stubsAtRest (s : State) : Prop :=
  s.irq.command = { enable := false, pending := false } ∧
    s.cmdfifo = { fifo := List.replicate 8 0x00, read := 0, write := 0, empty := true } ∧
    s.statfifo = { fifo := List.replicate 8 0x00, read := 0, write := 0, empty := true } ∧
    s.status.active = false ∧ s.status.busy = false

/-- The header spells the frame count `n` and the track kind (R24, R127, R129, R130). -/
abbrev Header.spells (h : Header) (n : Int) (kind : TrackKind) : Prop :=
  isBcd h.minute ∧ isBcd h.second ∧ isBcd h.frame ∧ bcdValue h.second < 60 ∧ bcdValue h.frame < 75 ∧
    ((bcdValue h.minute * 4500 + bcdValue h.second * 75 + bcdValue h.frame : Nat) : Int) = n ∧
    h.mode = (if kind = .audio then 0x00 else 0x01)

/-- How far address `a` lies past `p` in the ring's window (R55). -/
def ringDistance (p a : Nat) : Nat := (a + 16384 - p % 16384) % 16384

/-- The word a transfer moves next, as R53 assembles it from two ring bytes. -/
def bigEndianWord (m : Memory) (a : Nat) : Word :=
  ((Memory.read m (a % 16384)).setWidth 16 <<< 8) ||| (Memory.read m ((a + 1) % 16384)).setWidth 16

/-- The port call a poll makes when it drives the line to `level` (R177). -/
def lineEvent (level : Bool) : Event := if level then .irqRaise else .irqLower

/-- The external address is even (R59). -/
abbrev State.addressEven (s : State) : Prop := s.transfer.address.getLsbD 0 = false

/-- One transaction performed `n` times, stopping at the first fault or refusal. -/
def repeatExec (i : Instr) : Nat → State → Result
  | 0, s => .next s
  | n + 1, s =>
    match exec i s with
    | .next s1 => repeatExec i n s1
    | .fault r => .fault r
    | .refused r => .refused r

/-- The state with everything R46 calls hidden, the FIFOs (R37) and the command source (R34) set to fixed values: the
fields no transaction can observe. -/
def State.visible (s : State) : State :=
  { s with
    status := { s.status with enable := false, wait := false },
    control :=
      { s.control with
        ctrl0bit6 := false, errorCorrection := false, erasureRequest := false, qCorrection := false,
        pCorrection := false, syncInterrupt := false, syncDetect := false, descramble := false, cowren := false,
        mbckrq := false, commandBreak := false },
    transfer := { s.transfer with wait := false },
    irq := { s.irq with command := idleSource },
    cmdfifo := emptyFifo, statfifo := emptyFifo }

/-- The result with the state of `State.visible` in it. -/
def visibleResult : Result → Result
  | .next s => .next s.visible
  | .fault r => .fault r
  | .refused r => .refused r

/-- An event is a write to an external memory (R50). -/
def Event.isPortWrite : Event → Bool
  | .wramWrite _ _ | .prgWrite _ _ | .pcmWrite8 _ _ => true
  | .imageRead _ _ _ | .irqRaise | .irqLower | .diag _ _ => false

/-- An event is a read of the disc image (R51). -/
def Event.isImageRead : Event → Bool
  | .imageRead _ _ _ => true
  | .wramWrite _ _ | .prgWrite _ _ | .pcmWrite8 _ _ | .irqRaise | .irqLower | .diag _ _ => false

end Sys2Proof.Machine
end

