-- ==== Sys2Proof/Certificates/Slice0/Obligations.lean ====
section
/-! DEFINITION. The statements for the provers. Each says what an instruction or the machine does, after the numbered
rules of the spec. In a statement with an exact next state, everything not named is as before: that is the frame.
The fields `input`, `response`, `events`, `disc` and `draws` are the model's own (assumption log 1, 6, 7, 8, 9). -/

open Sys2Proof Sys2Proof.Machine

/-! ### Register-window reads -/

/-- R89, R102, R103: COMIN reads 0xFF and leaves the latch; STAT0 reads 0x80 and STAT1 0x00. The values of STAT0 and
STAT1 and COMIN's stub are the spec's decisions D7 and D36. -/
def Obligations.ConstantSlotReads : Prop :=
  ∀ s : State,
    (s.regfile.address = 0 → exec .rdComin s = .next { s with response := .u8 0xFF }) ∧
    (s.regfile.address = 12 →
      exec .rdStat0 s = .next { s with regfile := { address := 13 }, response := .u8 0x80 }) ∧
    (s.regfile.address = 13 →
      exec .rdStat1 s = .next { s with regfile := { address := 14 }, response := .u8 0x00 })

/-- R91, R98 to R101: DBCL, PTL, PTH, WAL and WAH return the low or high byte of their counter; the latch moves to the
next slot; nothing else changes. With each row's selector. -/
def Obligations.CounterSlotReads : Prop :=
  ∀ s : State,
    selector .rdDbcl = 0x02 ∧ selector .rdPtl = 0x08 ∧ selector .rdPth = 0x09 ∧ selector .rdWal = 0x0A ∧
    selector .rdWah = 0x0B ∧
    (s.regfile.address = 2 → exec .rdDbcl s =
      .next { s with regfile := { address := 3 }, response := .u8 (s.transfer.length.setWidth 8) }) ∧
    (s.regfile.address = 8 → exec .rdPtl s =
      .next { s with regfile := { address := 9 }, response := .u8 (s.transfer.pointer.setWidth 8) }) ∧
    (s.regfile.address = 9 → exec .rdPth s =
      .next { s with regfile := { address := 10 }, response := .u8 ((s.transfer.pointer >>> 8).setWidth 8) }) ∧
    (s.regfile.address = 10 → exec .rdWal s =
      .next { s with regfile := { address := 11 }, response := .u8 (s.transfer.target.setWidth 8) }) ∧
    (s.regfile.address = 11 → exec .rdWah s =
      .next { s with regfile := { address := 12 }, response := .u8 ((s.transfer.target >>> 8).setWidth 8) })

/-- R92, R104 (decisions D9, D7): DBCH reads `length[11:8]` in bits 3:0; STAT2 reads `decoder.mode` in bit 3 and
`decoder.form` in bit 2. -/
def Obligations.DbchAndStat2Reads : Prop :=
  ∀ s : State,
    (s.regfile.address = 3 → exec .rdDbch s =
      .next { s with regfile := { address := 4 }, response := .u8 ((s.transfer.length >>> 8).setWidth 8) }) ∧
    (s.regfile.address = 14 → exec .rdStat2 s =
      .next { s with
        regfile := { address := 15 },
        response := .u8 ((if s.decoder.mode then 0x08 else 0x00) ||| (if s.decoder.form then 0x04 else 0x00)) })

/-- R90 (decision D8): IFSTAT reads its flags active low, bit 4 set and bit 7 clear; the latch becomes 2; nothing else
changes. -/
def Obligations.IfstatRead : Prop :=
  ∀ s : State, s.regfile.address = 1 →
    ∃ b : Byte, exec .rdIfstat s = .next { s with regfile := { address := 2 }, response := .u8 b } ∧
      b.getLsbD 7 = false ∧ b.getLsbD 6 = !s.irq.transfer.pending ∧ b.getLsbD 5 = !s.irq.decoder.pending ∧
      b.getLsbD 4 = true ∧ b.getLsbD 3 = !s.transfer.busy ∧ b.getLsbD 2 = !s.status.busy ∧
      b.getLsbD 1 = !s.transfer.active ∧ b.getLsbD 0 = !s.status.active

/-- R93 to R97: in header mode HEAD0 to HEAD3 return minute, second, frame and mode; in sub-header mode each is refused
(decision D13). -/
def Obligations.HeaderSlotReads : Prop :=
  ∀ s : State,
    (s.control.head = false →
      (s.regfile.address = 4 → exec .rdHead0 s =
        .next { s with regfile := { address := 5 }, response := .u8 s.header.minute }) ∧
      (s.regfile.address = 5 → exec .rdHead1 s =
        .next { s with regfile := { address := 6 }, response := .u8 s.header.second }) ∧
      (s.regfile.address = 6 → exec .rdHead2 s =
        .next { s with regfile := { address := 7 }, response := .u8 s.header.frame }) ∧
      (s.regfile.address = 7 → exec .rdHead3 s =
        .next { s with regfile := { address := 8 }, response := .u8 s.header.mode })) ∧
    (s.control.head = true →
      (s.regfile.address = 4 → exec .rdHead0 s = .refused .unsupportedSubheaderRead) ∧
      (s.regfile.address = 5 → exec .rdHead1 s = .refused .unsupportedSubheaderRead) ∧
      (s.regfile.address = 6 → exec .rdHead2 s = .refused .unsupportedSubheaderRead) ∧
      (s.regfile.address = 7 → exec .rdHead3 s = .refused .unsupportedSubheaderRead))

/-- R105 (decision D39 for bits 6:0): STAT3 returns `~valid` in bit 7, then clears `valid` and the decoder interrupt and
re-polls; the latch becomes 0. -/
def Obligations.Stat3ReadAcknowledges : Prop :=
  ∀ s : State, s.regfile.address = 15 →
    exec .rdStat3 s = .next { s with
      regfile := { address := 0 },
      decoder := { s.decoder with valid := false },
      irq := { s.irq with
        decoder := { s.irq.decoder with pending := false },
        line := s.irq.transfer.enable && s.irq.transfer.pending },
      events := s.events ++ [lineEvent (s.irq.transfer.enable && s.irq.transfer.pending)],
      response := .u8 (if s.decoder.valid then 0x00 else 0x80) }

/-- R86: after any register-window access that completes, the latch is unchanged for slot 0, 0 for slot 15, and one more
than the slot otherwise. -/
def Obligations.WindowLatchAdvance : Prop :=
  ∀ (i : Instr) (k : Slot) (s t : State), slotOf i = some k → exec i s = .next t →
    t.regfile.address = if k = 0 then s.regfile.address else if k = 15 then 0 else s.regfile.address + 1

/-- R83, R84 (decision D2): a recorded register-window transaction whose slot is not the current latch is refused. -/
def Obligations.WrongSlotRefused : Prop :=
  ∀ (i : Instr) (k : Slot) (s : State), slotOf i = some k → s.regfile.address ≠ k →
    exec i s = .refused .unknownTransaction

/-! ### Register-window writes -/

/-- R108, R114, R115: DBCL, WAL and WAH replace one byte of their counter and nothing else but the latch. With each
row's selector. -/
def Obligations.CounterByteWrites : Prop :=
  ∀ (s : State) (d : Byte),
    selector (.wrDbcl d) = 0x12 ∧ selector (.wrWal d) = 0x18 ∧ selector (.wrWah d) = 0x19 ∧
    (s.regfile.address = 2 → exec (.wrDbcl d) s = .next { s with
      regfile := { address := 3 },
      transfer := { s.transfer with length := (s.transfer.length &&& 0xF00) ||| d.setWidth 12 },
      response := .none }) ∧
    (s.regfile.address = 8 → exec (.wrWal d) s = .next { s with
      regfile := { address := 9 },
      transfer := { s.transfer with target := (s.transfer.target &&& 0xFF00) ||| d.setWidth 16 },
      response := .none }) ∧
    (s.regfile.address = 9 → exec (.wrWah d) s = .next { s with
      regfile := { address := 10 },
      transfer := { s.transfer with target := (s.transfer.target &&& 0x00FF) ||| (d.setWidth 16 <<< 8) },
      response := .none })

/-- R109 to R111, R119, R120 (decisions D9, D11): DBCH replaces `length[11:8]` by bits 3:0 of the byte; DACL and DACH
write `source`, PTL and PTH write `pointer`. -/
def Obligations.SplitCounterByteWrites : Prop :=
  ∀ (s : State) (d : Byte),
    (s.regfile.address = 3 → exec (.wrDbch d) s = .next { s with
      regfile := { address := 4 },
      transfer := { s.transfer with length := (s.transfer.length &&& 0x0FF) ||| ((d &&& 0x0F).setWidth 12 <<< 8) },
      response := .none }) ∧
    (s.regfile.address = 4 → exec (.wrDacl d) s = .next { s with
      regfile := { address := 5 },
      transfer := { s.transfer with source := (s.transfer.source &&& 0xFF00) ||| d.setWidth 16 },
      response := .none }) ∧
    (s.regfile.address = 5 → exec (.wrDach d) s = .next { s with
      regfile := { address := 6 },
      transfer := { s.transfer with source := (s.transfer.source &&& 0x00FF) ||| (d.setWidth 16 <<< 8) },
      response := .none }) ∧
    (s.regfile.address = 12 → exec (.wrPtl d) s = .next { s with
      regfile := { address := 13 },
      transfer := { s.transfer with pointer := (s.transfer.pointer &&& 0xFF00) ||| d.setWidth 16 },
      response := .none }) ∧
    (s.regfile.address = 13 → exec (.wrPth d) s = .next { s with
      regfile := { address := 14 },
      transfer := { s.transfer with pointer := (s.transfer.pointer &&& 0x00FF) ||| (d.setWidth 16 <<< 8) },
      response := .none })

/-- R40, R107 (decisions D3, D35, D42): IFCTRL writes seven fields, aborts the transfer when bit 1 is 0, and re-polls
with the enables just written. -/
def Obligations.IfctrlWrite : Prop :=
  ∀ (s : State) (d : Byte), s.regfile.address = 1 →
    exec (.wrIfctrl d) s = .next { s with
      regfile := { address := 2 },
      status := { s.status with enable := d.getLsbD 0, wait := d.getLsbD 2 },
      transfer := { s.transfer with
        enable := d.getLsbD 1, wait := d.getLsbD 3, active := s.transfer.active && d.getLsbD 1,
        busy := s.transfer.busy && d.getLsbD 1, ready := s.transfer.ready && d.getLsbD 1 },
      control := { s.control with commandBreak := d.getLsbD 4 },
      irq := { s.irq with
        decoder := { s.irq.decoder with enable := d.getLsbD 5 },
        transfer := { s.irq.transfer with enable := d.getLsbD 6 },
        line := (d.getLsbD 5 && s.irq.decoder.pending) || (d.getLsbD 6 && s.irq.transfer.pending) },
      events := s.events ++
        [lineEvent ((d.getLsbD 5 && s.irq.decoder.pending) || (d.getLsbD 6 && s.irq.transfer.pending))],
      response := .none }

/-- R41, R42, R116 to R118 (decisions D4, D5, D6): CTRL0 and CTRL1 store every bit of the byte and recompute the
decoder's mode and form. -/
def Obligations.ControlWrites : Prop :=
  ∀ (s : State) (d : Byte),
    (s.regfile.address = 10 → exec (.wrCtrl0 d) s = .next { s with
      regfile := { address := 11 },
      decoder := { s.decoder with
        enable := d.getLsbD 7, mode := s.control.mode, form := s.control.form && !d.getLsbD 4 },
      control := { s.control with
        ctrl0bit6 := d.getLsbD 6, errorCorrection := d.getLsbD 5, autoCorrection := d.getLsbD 4,
        erasureRequest := d.getLsbD 3, writeRequest := d.getLsbD 2, qCorrection := d.getLsbD 1,
        pCorrection := d.getLsbD 0 },
      response := .none }) ∧
    (s.regfile.address = 11 → exec (.wrCtrl1 d) s = .next { s with
      regfile := { address := 12 },
      decoder := { s.decoder with mode := d.getLsbD 3, form := d.getLsbD 2 && !s.control.autoCorrection },
      control := { s.control with
        syncInterrupt := d.getLsbD 7, syncDetect := d.getLsbD 6, descramble := d.getLsbD 5, cowren := d.getLsbD 4,
        mode := d.getLsbD 3, form := d.getLsbD 2, mbckrq := d.getLsbD 1, head := d.getLsbD 0 },
      response := .none })

/-- R106, R121 (decisions D36, D12): an SBOUT write changes nothing, the latch included; a CTRL2 write changes the latch
only. -/
def Obligations.EffectlessWrites : Prop :=
  ∀ (s : State) (d : Byte),
    (s.regfile.address = 0 → exec (.wrSbout d) s = .next { s with response := .none }) ∧
    (s.regfile.address = 14 →
      exec (.wrCtrl2 d) s = .next { s with regfile := { address := 15 }, response := .none })

/-- R112, R142: DTRG with transfer output disabled changes the latch only; with it enabled it starts the transfer,
samples `ready` from the destination, clears `completed` and the transfer interrupt and re-polls, keeping the counters.
-/
def Obligations.DtrgWrite : Prop :=
  ∀ (s : State) (d : Byte), s.regfile.address = 6 →
    (s.transfer.enable = false →
      exec (.wrDtrg d) s = .next { s with regfile := { address := 7 }, response := .none }) ∧
    (s.transfer.enable = true → exec (.wrDtrg d) s = .next { s with
      regfile := { address := 7 },
      transfer := { s.transfer with
        active := true, busy := true,
        ready := decide (s.transfer.destination = 2 ∨ s.transfer.destination = 3), completed := false },
      irq := { s.irq with
        transfer := { s.irq.transfer with pending := false },
        line := s.irq.decoder.enable && s.irq.decoder.pending },
      events := s.events ++ [lineEvent (s.irq.decoder.enable && s.irq.decoder.pending)],
      response := .none })

/-- R113 (decisions D10, D23): DTACK clears the transfer interrupt and `length[11:8]` and re-polls. -/
def Obligations.DtackWrite : Prop :=
  ∀ (s : State) (d : Byte), s.regfile.address = 7 →
    exec (.wrDtack d) s = .next { s with
      regfile := { address := 8 },
      transfer := { s.transfer with length := s.transfer.length &&& 0x0FF },
      irq := { s.irq with
        transfer := { s.irq.transfer with pending := false },
        line := s.irq.decoder.enable && s.irq.decoder.pending },
      events := s.events ++ [lineEvent (s.irq.decoder.enable && s.irq.decoder.pending)],
      response := .none }

/-- R122, R123, R193 (decision D21; that the model's own fields stay is assumption log 13): a RESET write leaves every
sub-state at its power-on value, the line low and the latch 0, whatever the state before, and keeps the ring, both FIFOs
and the stopwatch. -/
def Obligations.ResetWrite : Prop :=
  ∀ (s : State) (d : Byte), s.regfile.address = 15 →
    exec (.wrReset d) s = .next { State.reset with
      ring := s.ring, cmdfifo := s.cmdfifo, statfifo := s.statfifo, stopwatch := s.stopwatch, input := s.input,
      disc := s.disc, draws := s.draws, events := s.events ++ [.irqLower] }

/-! ### Bus ports -/

/-- R158: MODERD returns `address_latch | (destination << 8) | (ready << 14) | (completed << 15)` and changes nothing.
Its selector is 0x20. -/
def Obligations.ModeRegisterRead : Prop :=
  ∀ s : State, selector .moderd = 0x20 ∧ exec .moderd s = .next { s with
    response := .u16 (s.regfile.address.setWidth 16 ||| (s.transfer.destination.setWidth 16 <<< 8) |||
      (if s.transfer.ready then 0x4000 else 0) ||| (if s.transfer.completed then 0x8000 else 0)) }

/-- R159, R167 (decision D15): MODERDH returns the byte of the mode register the open parameter selects and changes
nothing; the register images are the mode register, that byte and the stopwatch. Nothing rests on the parameter's value.
-/
def Obligations.HostModeByteRead : Prop :=
  ∀ s : State, ∃ m : Word,
    ownerImage s 0x4 = some m ∧
    exec .moderd s = .next { s with response := .u16 m } ∧
    exec .moderdh s = .next { s with
      response := .u8 (if Config.mainModeByte = .high then (m >>> 8).setWidth 8 else m.setWidth 8) } ∧
    hostImage s 0x4 = some (if Config.mainModeByte = .high then m >>> 8 else m &&& 0xFF) ∧
    ownerImage s 0xC = some (s.stopwatch.setWidth 16) ∧ hostImage s 0xC = some (s.stopwatch.setWidth 16)

/-- R160, R161 (decisions D14, D37, D41): MODEWL sets the latch to bits 3:0 of the byte and MODEWH the destination to
bits 2:0, and nothing else. -/
def Obligations.ModePortWrites : Prop :=
  ∀ (s : State) (d : Byte),
    exec (.modewl d) s = .next { s with regfile := { address := d.setWidth 4 }, response := .none } ∧
    exec (.modewh d) s =
      .next { s with transfer := { s.transfer with destination := d.setWidth 3 }, response := .none }

/-- R162, R163: a CDC_DMA_ADDRESS write stores `v << 3`; a read returns `address >> 3` and changes nothing. With each
row's selector. -/
def Obligations.DmaAddressPort : Prop :=
  ∀ (s : State) (v : Word),
    selector (.dmaawr v) = 0x25 ∧ selector .dmaard = 0x24 ∧
    exec (.dmaawr v) s =
      .next { s with transfer := { s.transfer with address := v.setWidth 19 <<< 3 }, response := .none } ∧
    exec .dmaard s = .next { s with response := .u16 ((s.transfer.address >>> 3).setWidth 16) }

/-- R166: a STOPWATCH write of any value resets the counter to 0 and changes nothing else. Its selector is 0x28. -/
def Obligations.StopwatchWriteClears : Prop :=
  ∀ (s : State) (v : Word),
    selector (.swwr v) = 0x28 ∧ exec (.swwr v) s = .next { s with stopwatch := 0, response := .none }

/-- R165, R168, R185 (decisions D22, D28): SWRD returns the zero-extended counter; STEP adds one modulo 4096 whatever
the cycle count. -/
def Obligations.StopwatchCounts : Prop :=
  ∀ (s : State) (c : Nat),
    exec .swrd s = .next { s with response := .u16 (BitVec.ofNat 16 s.stopwatch.toNat) } ∧
    ∃ n : BitVec 12, exec (.stepTick c) s = .next { s with stopwatch := n, response := .none } ∧
      n.toNat = (s.stopwatch.toNat + 1) % 4096

/-! ### The transfer engine -/

/-- R155, R151 (decision D26): a CDC_HOST read with `ready` 0 returns 0xFFFF and changes nothing, for any destination; a
`dma()` call with no active transfer or with a destination outside 4, 5, 7 changes nothing. -/
def Obligations.TransferGating : Prop :=
  ∀ s : State,
    (s.transfer.ready = false → exec .hostrd s = .next { s with response := .u16 0xFFFF }) ∧
    (s.transfer.active = false ∨
        (s.transfer.destination ≠ 4 ∧ s.transfer.destination ≠ 5 ∧ s.transfer.destination ≠ 7) →
      exec .dma s = .next { s with response := .none })

/-- R146, R144, R145 (decisions D16, D40): with `ready` 1, a CDC_HOST read returns the big-endian word at `source`,
advances `source` by 2 modulo 0x4000 and lowers the length by 2; with a length of 2 or less the length becomes 0 and the
transfer completes. -/
def Obligations.HostReadMovesWord : Prop :=
  ∀ s : State, s.transfer.ready = true →
    (2 < s.transfer.length.toNat → exec .hostrd s = .next { s with
      transfer := { s.transfer with
        source := BitVec.ofNat 16 ((s.transfer.source.toNat + 2) % 0x4000),
        length := BitVec.ofNat 12 (s.transfer.length.toNat - 2) },
      response := .u16 (bigEndianWord s.ring s.transfer.source.toNat) }) ∧
    (s.transfer.length.toNat ≤ 2 → exec .hostrd s = .next { s with
      transfer := { s.transfer with
        source := BitVec.ofNat 16 ((s.transfer.source.toNat + 2) % 0x4000), length := 0, active := false,
        busy := false, ready := false, completed := true },
      irq := { s.irq with
        transfer := { s.irq.transfer with pending := true },
        line := (s.irq.decoder.enable && s.irq.decoder.pending) || s.irq.transfer.enable },
      events := s.events ++
        [lineEvent ((s.irq.decoder.enable && s.irq.decoder.pending) || s.irq.transfer.enable)],
      response := .u16 (bigEndianWord s.ring s.transfer.source.toNat) })

/-- R147 to R150, R152, R57 (decisions D17, D27, D31, D40): an active transfer with destination 4, 5 or 7 moves one word
per `dma()` call: the port writes of that destination, `source` 2 on, `address` 2 on (4 on for destination 4), the
length 2 down or the completion. -/
def Obligations.DmaMovesWord : Prop :=
  ∀ (s : State) (d : BitVec 3) (w : Word) (a : Addr) (writes : List Event), s.transfer.active = true →
    s.transfer.destination = d → (d = 4 ∨ d = 5 ∨ d = 7) →
    w = bigEndianWord s.ring s.transfer.source.toNat → a = s.transfer.address →
    writes = (if d = 7 then [.wramWrite a w] else if d = 5 then [.prgWrite a w]
      else [.pcmWrite8 a ((w >>> 8).setWidth 8), .pcmWrite8 (a + 1) (w.setWidth 8)]) →
    (2 < s.transfer.length.toNat → exec .dma s = .next { s with
      transfer := { s.transfer with
        source := BitVec.ofNat 16 ((s.transfer.source.toNat + 2) % 0x4000),
        address := BitVec.ofNat 19 (a.toNat + if d = 4 then 4 else 2),
        length := BitVec.ofNat 12 (s.transfer.length.toNat - 2) },
      events := s.events ++ writes, response := .none }) ∧
    (s.transfer.length.toNat ≤ 2 → exec .dma s = .next { s with
      transfer := { s.transfer with
        source := BitVec.ofNat 16 ((s.transfer.source.toNat + 2) % 0x4000),
        address := BitVec.ofNat 19 (a.toNat + if d = 4 then 4 else 2), length := 0, active := false,
        busy := false, ready := false, completed := true },
      irq := { s.irq with
        transfer := { s.irq.transfer with pending := true },
        line := (s.irq.decoder.enable && s.irq.decoder.pending) || s.irq.transfer.enable },
      events := s.events ++ writes ++
        [lineEvent ((s.irq.decoder.enable && s.irq.decoder.pending) || s.irq.transfer.enable)],
      response := .none })

/-- R154, R152 (decision D17 for the wrap of `address`): a transfer of an even length L of at least 2 completes with
exactly L/2 calls: `dma()` for destinations 4, 5 and 7, where `source` advances by L and `address` by L (2L for
destination 4); CDC_HOST reads with `ready` 1, where `source` advances by L. No call before the last completes it. -/
def Obligations.TransferCompletesAfterHalfLengthCalls : Prop :=
  ∀ (s : State) (n : Nat), 1 ≤ n → s.transfer.length.toNat = 2 * n → s.transfer.completed = false →
    (s.transfer.active = true →
      (s.transfer.destination = 4 ∨ s.transfer.destination = 5 ∨ s.transfer.destination = 7) →
      (∃ t, repeatExec .dma n s = .next t ∧ t.transfer.completed = true ∧ t.transfer.active = false ∧
        t.transfer.length = 0 ∧ t.irq.transfer.pending = true ∧
        t.transfer.source = BitVec.ofNat 16 ((s.transfer.source.toNat + 2 * n) % 0x4000) ∧
        t.transfer.address =
          BitVec.ofNat 19 (s.transfer.address.toNat + if s.transfer.destination = 4 then 4 * n else 2 * n)) ∧
      ∀ k < n, ∃ u, repeatExec .dma k s = .next u ∧ u.transfer.completed = false) ∧
    (s.transfer.ready = true →
      (∃ t, repeatExec .hostrd n s = .next t ∧ t.transfer.completed = true ∧ t.transfer.ready = false ∧
        t.transfer.length = 0 ∧ t.irq.transfer.pending = true ∧
        t.transfer.source = BitVec.ofNat 16 ((s.transfer.source.toNat + 2 * n) % 0x4000)) ∧
      ∀ k < n, ∃ u, repeatExec .hostrd k s = .next u ∧ u.transfer.completed = false)

/-- R149, R53, R154 (decisions D16, D17, D31): the whole of a program-RAM transfer. A started destination-5 transfer of
2n bytes issues, over n `dma()` calls, exactly the n words of the ring from `source` on, in order, at `address`,
`address + 2`, ..., then the one interrupt-line call of its completion. -/
def Obligations.ProgramRamReceivesRingWords : Prop :=
  ∀ (s : State) (n : Nat), 1 ≤ n → s.transfer.length.toNat = 2 * n → s.transfer.active = true →
    s.transfer.destination = 5 →
    ∃ t, repeatExec .dma n s = .next t ∧ t.ring = s.ring ∧
      t.events = s.events ++
        (List.range n).map (fun k => Event.prgWrite (BitVec.ofNat 19 (s.transfer.address.toNat + 2 * k))
          (bigEndianWord s.ring (s.transfer.source.toNat + 2 * k))) ++
        [lineEvent ((s.irq.decoder.enable && s.irq.decoder.pending) || s.irq.transfer.enable)]

/-! ### The decode pipeline -/

/-- R126, R128 (decision D18): DECODE with the decoder disabled changes nothing; enabled, it is refused exactly where
`lba + 150` lies outside 0..449999. -/
def Obligations.DecodeGateAndDomain : Prop :=
  ∀ (s : State) (lba : Int) (kind : TrackKind) (track : Nat),
    (s.decoder.enable = false → exec (.decodeSector lba kind track) s = .next { s with response := .none }) ∧
    (s.decoder.enable = true →
      (exec (.decodeSector lba kind track) s = .refused .timecodeOutOfRange ↔ lba < -150 ∨ 449849 < lba))

/-- R125, R127 to R132: an enabled DECODE inside the domain, with no write requested, latches the BCD timecode of `lba +
150` and the mode byte, sets `valid` and the decoder interrupt, polls, and changes nothing else. The arithmetic of the
timecode is the spec's import K8. -/
def Obligations.DecodeHeaderOnly : Prop :=
  ∀ (s : State) (lba : Int) (kind : TrackKind) (track : Nat), s.decoder.enable = true → -150 ≤ lba → lba ≤ 449849 →
    s.control.writeRequest = false →
    ∃ h : Header, h.spells (lba + 150) kind ∧
      exec (.decodeSector lba kind track) s = .next { s with
        header := h,
        decoder := { s.decoder with valid := true },
        irq := { s.irq with
          decoder := { s.irq.decoder with pending := true },
          line := s.irq.decoder.enable || (s.irq.transfer.enable && s.irq.transfer.pending) },
        events := s.events ++
          [lineEvent (s.irq.decoder.enable || (s.irq.transfer.enable && s.irq.transfer.pending))],
        response := .none }

/-- R125, R131 to R134, R139 (decisions D16, D17): a priming tick, or a tick of an audio track, with a write requested
advances `pointer` and `target` by 2352, writes its header's four bytes from the new `pointer` on, and changes no other
ring byte. -/
def Obligations.DecodeCommitsHeader : Prop :=
  ∀ (s : State) (lba : Int) (kind : TrackKind) (track : Nat), s.decoder.enable = true → -150 ≤ lba → lba ≤ 449849 →
    s.control.writeRequest = true → (lba < 0 ∨ kind = .audio) →
    ∃ (h : Header) (m : Memory), h.spells (lba + 150) kind ∧
      exec (.decodeSector lba kind track) s = .next { s with
        header := h,
        decoder := { s.decoder with valid := true },
        irq := { s.irq with
          decoder := { s.irq.decoder with pending := true },
          line := s.irq.decoder.enable || (s.irq.transfer.enable && s.irq.transfer.pending) },
        transfer := { s.transfer with
          pointer := BitVec.ofNat 16 (s.transfer.pointer.toNat + 2352),
          target := BitVec.ofNat 16 (s.transfer.target.toNat + 2352) },
        ring := m,
        events := s.events ++
          [lineEvent (s.irq.decoder.enable || (s.irq.transfer.enable && s.irq.transfer.pending))],
        response := .none } ∧
      ∀ a < 16384, Memory.read m a =
        if ringDistance (s.transfer.pointer.toNat + 2352) a < 4
        then [h.minute, h.second, h.frame, h.mode].getD (ringDistance (s.transfer.pointer.toNat + 2352) a) 0
        else Memory.read s.ring a

/-- R139: with writes requested, an audio tick advances both pointers, writes its four header bytes with mode byte 0x00,
keeps the 2048 bytes after them, and reads nothing from the disc image. The advance of 2352 modulo 2^16 and the wrap of
each ring byte are the spec's decisions D17 and D16 (assumption log 12). -/
def Obligations.AudioTickKeepsPayloadArea : Prop :=
  ∀ (s : State) (lba : Int) (track : Nat), s.decoder.enable = true → -150 ≤ lba → lba ≤ 449849 →
    s.control.writeRequest = true →
    ∃ t, exec (.decodeSector lba .audio track) s = .next t ∧
      t.transfer.pointer = s.transfer.pointer + 2352 ∧ t.transfer.target = s.transfer.target + 2352 ∧
      t.ringByte t.transfer.pointer.toNat = t.header.minute ∧
      t.ringByte (t.transfer.pointer.toNat + 1) = t.header.second ∧
      t.ringByte (t.transfer.pointer.toNat + 2) = t.header.frame ∧
      t.ringByte (t.transfer.pointer.toNat + 3) = 0x00 ∧
      (∀ i < 2048, t.ringByte (t.transfer.pointer.toNat + 4 + i) = s.ringByte (t.transfer.pointer.toNat + 4 + i)) ∧
      t.events.filter Event.isImageRead = s.events.filter Event.isImageRead

/-- R130: a DECODE that latches a header leaves its mode 0 for an audio track and 1 otherwise, and no other value. -/
def Obligations.HeaderModeFollowsTrackKind : Prop :=
  ∀ (s t : State) (lba : Int) (kind : TrackKind) (track : Nat), s.decoder.enable = true →
    exec (.decodeSector lba kind track) s = .next t →
    (kind = .audio → t.header.mode = 0x00) ∧ (kind ≠ .audio → t.header.mode = 0x01)

/-- R125, R133, R135, R136, R56 (decisions D16, D17, D20, D33): a data tick of an ISO track with a write requested puts
the header at the new `pointer` and the 2048 image bytes at `lba * 2048` four bytes past it, in the reader's order, and
makes exactly one image read. The reader is assumption log 8, the record of its calls log 7. -/
def Obligations.DecodeIsoSector : Prop :=
  ∀ (s : State) (lba : Nat) (track : Nat) (tr : ImageTrack), s.decoder.enable = true → lba ≤ 449849 →
    s.control.writeRequest = true → s.disc[track]? = some tr → tr.layout = .iso →
    lba * 2048 + 2048 ≤ tr.image.length →
    ∃ (h : Header) (m : Memory), h.spells ((lba : Int) + 150) .data ∧
      exec (.decodeSector lba .data track) s = .next { s with
        header := h,
        decoder := { s.decoder with valid := true },
        irq := { s.irq with
          decoder := { s.irq.decoder with pending := true },
          line := s.irq.decoder.enable || (s.irq.transfer.enable && s.irq.transfer.pending) },
        transfer := { s.transfer with
          pointer := BitVec.ofNat 16 (s.transfer.pointer.toNat + 2352),
          target := BitVec.ofNat 16 (s.transfer.target.toNat + 2352) },
        ring := m,
        events := s.events ++
          [lineEvent (s.irq.decoder.enable || (s.irq.transfer.enable && s.irq.transfer.pending)),
            .imageRead track ((lba : Int) * 2048) 2048],
        response := .none } ∧
      ∀ a < 16384, Memory.read m a =
        if ringDistance (s.transfer.pointer.toNat + 2352) a < 4
        then [h.minute, h.second, h.frame, h.mode].getD (ringDistance (s.transfer.pointer.toNat + 2352) a) 0
        else if ringDistance (s.transfer.pointer.toNat + 2352) a < 2052
        then tr.image.getD (lba * 2048 + (ringDistance (s.transfer.pointer.toNat + 2352) a - 4)) 0
        else Memory.read s.ring a

/-- R135, R137, R173 (decisions D16, D17, D20, D33): a data tick of a BIN/CUE track reads the sync pattern, the block
header and the payload, records a diagnostic for each mismatch, sync first, and copies the payload either way.
The reader is assumption log 8, the record of its calls log 7. -/
def Obligations.DecodeBinCueSector : Prop :=
  ∀ (s : State) (lba : Nat) (track : Nat) (tr : ImageTrack) (start : Nat), s.decoder.enable = true → lba ≤ 449849 →
    s.control.writeRequest = true → s.disc[track]? = some tr → tr.layout = .binCue →
    start = lba * tr.sectorSize + 16 → start + 2048 ≤ tr.image.length →
    ∃ (h : Header) (m : Memory), h.spells ((lba : Int) + 150) .data ∧
      exec (.decodeSector lba .data track) s = .next { s with
        header := h,
        decoder := { s.decoder with valid := true },
        irq := { s.irq with
          decoder := { s.irq.decoder with pending := true },
          line := s.irq.decoder.enable || (s.irq.transfer.enable && s.irq.transfer.pending) },
        transfer := { s.transfer with
          pointer := BitVec.ofNat 16 (s.transfer.pointer.toNat + 2352),
          target := BitVec.ofNat 16 (s.transfer.target.toNat + 2352) },
        ring := m,
        events := s.events ++
          [lineEvent (s.irq.decoder.enable || (s.irq.transfer.enable && s.irq.transfer.pending)),
            .imageRead track ((start - 16 : Nat) : Int) 12] ++
          (if (tr.image.drop (start - 16)).take 12 = [0x00, 0xFF, 0xFF, 0xFF, 0xFF, 0xFF, 0xFF, 0xFF, 0xFF, 0xFF, 0xFF, 0x00]
            then [] else [.diag .syncMismatch lba]) ++
          [.imageRead track ((start - 4 : Nat) : Int) 4] ++
          (if (tr.image.drop (start - 4)).take 4 = [h.minute, h.second, h.frame, 0x01]
            then [] else [.diag .headerMismatch lba]) ++
          [.imageRead track (start : Int) 2048],
        response := .none } ∧
      ∀ a < 16384, Memory.read m a =
        if ringDistance (s.transfer.pointer.toNat + 2352) a < 4
        then [h.minute, h.second, h.frame, h.mode].getD (ringDistance (s.transfer.pointer.toNat + 2352) a) 0
        else if ringDistance (s.transfer.pointer.toNat + 2352) a < 2052
        then tr.image.getD (start + (ringDistance (s.transfer.pointer.toNat + 2352) a - 4)) 0
        else Memory.read s.ring a

/-- R138 (decision D19): a data tick that wants its payload is refused where the handle names no track or the image ends
before the payload does. That a missing track is a short read is assumption log 8. -/
def Obligations.ShortImageReadRefused : Prop :=
  ∀ (s : State) (lba : Nat) (track : Nat), s.decoder.enable = true → lba ≤ 449849 → s.control.writeRequest = true →
    (s.disc[track]? = none ∨
      ∃ tr, s.disc[track]? = some tr ∧
        tr.image.length < (if tr.layout = .iso then lba * 2048 else lba * tr.sectorSize + 16) + 2048) →
    exec (.decodeSector lba .data track) s = .refused .shortImageRead

/-- R129's formula for `bcd(v)`: the encoding of every value from 0 to 99 has the tens digit in its high nibble and the
units digit in its low nibble. -/
def Obligations.BcdEncoding : Prop :=
  ∀ v : Nat, v ≤ 99 → (bcd v).toNat / 16 = v / 10 ∧ (bcd v).toNat % 16 = v % 10

/-! ### Polling and the resets -/

/-- R169, R177: POLL drives the line to the OR of the two enabled pending sources with one port call and changes nothing
else; where the line already has that level it stays. -/
def Obligations.PollDrivesLine : Prop :=
  ∀ (s : State) (p : Bool),
    p = ((s.irq.decoder.enable && s.irq.decoder.pending) || (s.irq.transfer.enable && s.irq.transfer.pending)) →
    exec .poll s = .next { s with
      irq := { s.irq with line := p }, events := s.events ++ [lineEvent p], response := .none } ∧
    (s.lineDriven → exec .poll s = .next { s with events := s.events ++ [lineEvent p], response := .none })

/-- R192, R194 (decision D21; the ring is the free draw of assumption log 9; that the model's own fields stay is
assumption log 13): SYSRESET puts the block in its power-on state but for the ring, which takes any contents, and lowers
the line with a port call. -/
def Obligations.SysResetState : Prop :=
  ∀ s : State, ∃ m : Memory,
    exec .sysReset s = .next { State.reset with
      ring := m, input := s.input, disc := s.disc, draws := s.draws + 1, events := s.events ++ [.irqLower] } ∧
    Memory.wf m ∧ ∀ a < 16384, Memory.read m a = Config.ringDraw s.draws a

/-- R191, R194 (decision D21; that the model's own fields stay is assumption log 13): CONSTRUCT puts the block in its
power-on state with no port call. -/
def Obligations.ConstructState : Prop :=
  ∀ s : State, exec .construct s = .next { State.reset with
    input := s.input, disc := s.disc, draws := s.draws, events := s.events }

/-- R194 (decision D21): what every read slot and port answers right after power-on, each slot reached by MODEWL and a
window read. -/
def Obligations.ResetRegisterValues : Prop :=
  (∀ k : Slot, ∃ t, runText (rdReg k) State.reset = .next t ∧
    t.response = .u8 ([0xFF, 0x7F, 0x00, 0x00, 0x00, 0x00, 0x00, 0x00, 0x00, 0x00, 0x00, 0x00, 0x80, 0x00, 0x00,
      0x80].getD k.toNat 0)) ∧
  exec .moderd State.reset = .next { State.reset with response := .u16 0x0000 } ∧
  exec .dmaard State.reset = .next { State.reset with response := .u16 0x0000 } ∧
  exec .hostrd State.reset = .next { State.reset with response := .u16 0xFFFF } ∧
  exec .swrd State.reset = .next { State.reset with response := .u16 0x0000 } ∧
  State.reset.irq.line = false ∧ ∀ a, Memory.read State.reset.ring a = 0x00

/-! ### Decoding and stepping -/

/-- R12, R67 (the recorded input is assumption log 1): when the recorded input begins with a transaction, a step
performs exactly it, with the input moved past its bytes. -/
def Obligations.StepRunsDecodedTransaction : Prop :=
  ∀ (s : State) (i : Instr) (rest : List Byte), decode s.input = .ok (i, rest) →
    step s = exec i { s with input := rest }

/-- R79, R84, R195 (decision D2; assumption log 3, 4 and 5): the decoder refuses exactly the reserved selectors as
reserved, every other selector is some transaction's, and a step refuses a reserved selector, does nothing where nothing
is issued, and stops by name on an incomplete transaction or an unknown kind byte. -/
def Obligations.ReservedAndUndecodedInput : Prop :=
  (∀ (sel : Byte) (rest : List Byte), decode (sel :: rest) = .error (.reserved sel) ↔
    (0x29 ≤ sel.toNat ∧ sel.toNat ≤ 0x3F) ∨ (0x46 ≤ sel.toNat ∧ sel.toNat ≤ 0x5F) ∨ 0x60 ≤ sel.toNat) ∧
  (∀ sel : Byte, (∃ i, selector i = sel) ↔
    ¬((0x29 ≤ sel.toNat ∧ sel.toNat ≤ 0x3F) ∨ (0x46 ≤ sel.toNat ∧ sel.toNat ≤ 0x5F) ∨ 0x60 ≤ sel.toNat)) ∧
  (∀ s : State, s.input = [] → step s = .next s) ∧
  (∀ (s : State) (sel : Byte), decode s.input = .error (.reserved sel) → step s = .refused .unknownTransaction) ∧
  (∀ s : State, s.input ≠ [] → decode s.input = .error .truncated → step s = .fault .inputTruncated) ∧
  (∀ (s : State) (b : Byte), decode s.input = .error (.badKind b) → step s = .refused .unknownTrackKind)

/-- R73 to R76, R82 (decision D2; operand bytes as assumption log 2): decoding the encoding of any well-formed
transaction gives it back, with every operand at every value it admits, and leaves the bytes after it. -/
def Obligations.DecodeOfEncode : Prop :=
  ∀ (i : Instr) (rest : List Byte), WellFormed i = true → decode (encode i ++ rest) = .ok (i, rest)

/-- R82 (decision D2; operand bytes as assumption log 2): what the decoder accepts is the encoding of the transaction it
answers, which is well-formed: each byte sequence has one meaning. -/
def Obligations.EncodeOfDecode : Prop :=
  ∀ (bs rest : List Byte) (i : Instr), decode bs = .ok (i, rest) → WellFormed i = true ∧ bs = encode i ++ rest

/-- R74 to R76 (decision D2): a few selectors from the spec's tables and test programs, with operands. How the operands
of DMAAWR and DECODE lie in bytes (high byte first, kind byte 1, a one-byte handle) is the model's choice, assumption
log 2. -/
def Obligations.SelectorWords : Prop :=
  decode [0x0F] = .ok (.rdStat3, []) ∧ decode [0x11, 0x20] = .ok (.wrIfctrl 0x20, []) ∧
  decode [0x23] = .ok (.moderdh, []) ∧ decode [0x25, 0x01, 0x00] = .ok (.dmaawr 0x0100, []) ∧
  decode [0x40, 0xFF, 0xFF, 0xFF, 0xFF, 0x01, 0x00] = .ok (.decodeSector (-1) .data 0, []) ∧
  decode [0x45] = .ok (.construct, [])

/-! ### Invariants every step keeps -/

/-- The power-on state meets every invariant stated below (R191, R194; decision D21). -/
def Obligations.InvariantsHoldAtReset : Prop :=
  State.reset.ringCanonical ∧ State.reset.lineDriven ∧ State.reset.transferRow ∧ State.reset.modeFormMirror ∧
    State.reset.headerIsTimecode ∧ State.reset.stubsAtRest ∧ State.reset.addressEven

/-- The ring keeps its canonical form, so that equal ring contents are equal data (20_memory.md). -/
def Obligations.RingStaysCanonical : Prop :=
  ∀ s t : State, s.ringCanonical → step s = .next t → t.ringCanonical

/-- R35, R177: at the end of every transaction the line is at the OR of the two enabled pending sources. -/
def Obligations.LineFollowsSources : Prop :=
  ∀ s t : State, s.lineDriven → step s = .next t → t.lineDriven

/-- R141, R32: the transfer flags stay in a row of the state table. -/
def Obligations.TransferStaysInTableRow : Prop :=
  ∀ s t : State, s.transferRow → step s = .next t → t.transferRow

/-- R118 (decision D6): the decoder's mode and form stay what the control bits make them. -/
def Obligations.ModeFormStaysMirror : Prop :=
  ∀ s t : State, s.modeFormMirror → step s = .next t → t.modeFormMirror

/-- R24, R96, R127, R129: the header stays a BCD timecode with a mode byte 0 or 1. -/
def Obligations.HeaderStaysTimecode : Prop :=
  ∀ s t : State, s.headerIsTimecode → step s = .next t → t.headerIsTimecode

/-- R22, R34, R37: the command source, both FIFOs and the status path's `active` and `busy` never leave rest. -/
def Obligations.StubsStayAtRest : Prop :=
  ∀ s t : State, s.stubsAtRest → step s = .next t → t.stubsAtRest

/-- R59: the external address stays even. -/
def Obligations.AddressStaysEven : Prop :=
  ∀ s t : State, s.addressEven → step s = .next t → t.addressEven

/-! ### Rules about every transaction -/

/-- R13, R171, R175: no transaction faults, and each answers a next state unless it is refused for one of four reasons,
each with its condition. That a missing track is a short read is assumption log 8. -/
def Obligations.TransactionOutcomes : Prop :=
  ∀ (i : Instr) (s : State),
    (∃ t, exec i s = .next t) ∨
    (exec i s = .refused .unknownTransaction ∧ ∃ k, slotOf i = some k ∧ s.regfile.address ≠ k) ∨
    (exec i s = .refused .unsupportedSubheaderRead ∧ s.control.head = true ∧
      (i = .rdHead0 ∨ i = .rdHead1 ∨ i = .rdHead2 ∨ i = .rdHead3)) ∨
    (exec i s = .refused .timecodeOutOfRange ∧
      ∃ lba kind track, i = .decodeSector lba kind track ∧ s.decoder.enable = true ∧
        (lba + 150 < 0 ∨ 450000 ≤ lba + 150)) ∨
    (exec i s = .refused .shortImageRead ∧
      ∃ lba track, i = .decodeSector lba .data track ∧ 0 ≤ lba ∧ s.decoder.enable = true ∧
        s.control.writeRequest = true ∧
        ∀ tr, s.disc[track]? = some tr → (tr.image.length : Int) <
          (if tr.layout = .iso then lba * 2048 else lba * tr.sectorSize + 16) + 2048)

/-- R49, R36, R23: only an enabled DECODE with a write requested and the two reset entry points change the ring; only an
enabled DECODE sets `decoder.valid`, and only a STAT3 read and the resets clear it. -/
def Obligations.RingAndValidWriters : Prop :=
  ∀ (i : Instr) (s t : State), exec i s = .next t →
    (t.ring ≠ s.ring →
      ((∃ lba kind track, i = .decodeSector lba kind track) ∧ s.decoder.enable = true ∧
        s.control.writeRequest = true) ∨ i = .sysReset ∨ i = .construct) ∧
    (t.decoder.valid = true → s.decoder.valid = false →
      (∃ lba kind track, i = .decodeSector lba kind track) ∧ s.decoder.enable = true) ∧
    (t.decoder.valid = false → s.decoder.valid = true →
      i = .rdStat3 ∨ (∃ d, i = .wrReset d) ∨ i = .sysReset ∨ i = .construct)

/-- R21, R141, R201: the latch moves only by a window access, MODEWL and the reset entry points; a transfer becomes
active only by DTRG, and completes only by a CDC_HOST read or `dma()`; nothing else, and no timer, does either. -/
def Obligations.LatchAndTransferMovers : Prop :=
  ∀ (i : Instr) (s t : State), exec i s = .next t →
    (t.regfile.address ≠ s.regfile.address →
      (∃ k, slotOf i = some k) ∨ (∃ d, i = .modewl d) ∨ i = .sysReset ∨ i = .construct) ∧
    (t.transfer.active = true → s.transfer.active = false → ∃ d, i = .wrDtrg d) ∧
    (t.transfer.completed = true → s.transfer.completed = false → i = .hostrd ∨ i = .dma)

/-- R50, R51: only `dma()` writes an external memory and only a DECODE reads the disc image. That every transaction
keeps the events recorded before it is the model's choice: the record is assumption log 7, its keeping over the resets
log 13. -/
def Obligations.ExternalPortUsers : Prop :=
  ∀ (i : Instr) (s t : State), exec i s = .next t →
    (∃ es, t.events = s.events ++ es) ∧
    (i ≠ .dma → t.events.filter Event.isPortWrite = s.events.filter Event.isPortWrite) ∧
    ((∀ lba track, i ≠ .decodeSector lba .data track) →
      t.events.filter Event.isImageRead = s.events.filter Event.isImageRead)

/-- R46, R37, R34: the hidden state influences nothing visible. Two states that differ only in it give the same result,
answer and events included, up to the hidden state. -/
def Obligations.HiddenStateUnobservable : Prop :=
  ∀ (i : Instr) (s u : State), s.visible = u.visible → visibleResult (exec i s) = visibleResult (exec i u)

/-! ### Program text -/

/-- R81 (decision D2): WRPAIR loads a 16-bit counter (its low 12 bits for the length) whatever the latch was, and RDPAIR
answers first the low and then the high byte of a counter. -/
def Obligations.PairAccesses : Prop :=
  ∀ (s : State) (v : Word),
    runText (wrPair 2 v) s = .next { s with
      regfile := { address := 4 }, transfer := { s.transfer with length := v.setWidth 12 }, response := .none } ∧
    runText (wrPair 4 v) s = .next { s with
      regfile := { address := 6 }, transfer := { s.transfer with source := v }, response := .none } ∧
    runText (wrPair 8 v) s = .next { s with
      regfile := { address := 10 }, transfer := { s.transfer with target := v }, response := .none } ∧
    runText (wrPair 12 v) s = .next { s with
      regfile := { address := 14 }, transfer := { s.transfer with pointer := v }, response := .none } ∧
    runText (rdReg 8) s = .next { s with
      regfile := { address := 9 }, response := .u8 (BitVec.ofNat 8 (s.transfer.pointer.toNat % 256)) } ∧
    runText (rdPair 8) s = .next { s with
      regfile := { address := 10 }, response := .u8 (BitVec.ofNat 8 (s.transfer.pointer.toNat / 256)) } ∧
    runText (rdReg 10) s = .next { s with
      regfile := { address := 11 }, response := .u8 (BitVec.ofNat 8 (s.transfer.target.toNat % 256)) } ∧
    runText (rdPair 10) s = .next { s with
      regfile := { address := 12 }, response := .u8 (BitVec.ofNat 8 (s.transfer.target.toNat / 256)) } ∧
    runText (rdReg 2) s = .next { s with
      regfile := { address := 3 }, response := .u8 (BitVec.ofNat 8 (s.transfer.length.toNat % 256)) } ∧
    runText (rdPair 2) s = .next { s with
      regfile := { address := 4 }, response := .u8 (BitVec.ofNat 8 (s.transfer.length.toNat / 256)) }

/-- R83, R87: a window access written as text is never refused for its slot; a text write always completes; and in
header mode a run of n text reads that starts at latch `a`, not 0, and does not reach slot 15 ends at latch `a + n`. -/
def Obligations.TextWindowAccesses : Prop :=
  (∀ s : State, performText .regrd s ≠ .refused .unknownTransaction) ∧
  (∀ (s : State) (d : Byte), ∃ t, performText (.regwr d) s = .next t) ∧
  (∀ (n : Nat) (s : State), s.control.head = false → s.regfile.address ≠ 0 → s.regfile.address.toNat + n ≤ 15 →
    ∃ t, runText (List.replicate n .regrd) s = .next t ∧
      t.regfile.address.toNat = s.regfile.address.toNat + n)
end

