-- ==== Sys2Proof/Laws/Decode.lean ====
section
/-! SUPPORT. The laws of the decoder and encoder that later proofs cite. -/

namespace Sys2Proof

/-- An encoding with bytes after it is the selector, then the operand bytes, then those bytes. -/
theorem encode_append (i : Instr) (rest : List Byte) : encode i ++ rest = selector i :: (operandBytes i ++ rest) := rfl

/-- The slot of a register-window access is its selector's `slot` field; the other classes have none (R73, R74). -/
theorem slotOf_eq (i : Instr) :
    slotOf i = if selClass (selector i) = 0 then some (selSlot (selector i)) else none := by
  cases i <;> simp [slotOf, selector, selClass, selSlot]

/-- At its own slot a recorded register-window read is what the text read of that latch value resolves to (R83). -/
theorem readRow_slot (k : Slot) : slotOf (readRow k) = some k := by
  revert k; decide

end Sys2Proof
end

