-- ==== Sys2Proof/Laws/Memory.lean ====
section
/-! SUPPORT. The laws of the ring's cells: what a read sees after a write, and that every operation keeps the canonical
form. -/

namespace Sys2Proof.Machine

theorem Memory.read_append (m n : Memory) (a : Nat) :
    Memory.read (m ++ n) a = if ∃ c ∈ m, c.1 = a then Memory.read m a else Memory.read n a := by
  induction m with
  | nil => simp
  | cons c m ih =>
    obtain ⟨k, b⟩ := c
    by_cases hk : k = a
    · simp [Memory.read, hk]
    · simp only [List.cons_append, Memory.read, if_neg hk, ih]
      simp [hk]

theorem Memory.read_eq_zero {m : Memory} {a : Nat} (h : ∀ c ∈ m, c.1 ≠ a) : Memory.read m a = 0 := by
  induction m with
  | nil => rfl
  | cons c m ih =>
    obtain ⟨k, b⟩ := c
    have hk : k ≠ a := h (k, b) (by simp)
    simp [Memory.read, hk, ih fun c hc => h c (List.mem_cons_of_mem _ hc)]

theorem Memory.read_filter (m : Memory) (p : Nat → Bool) (a : Nat) :
    Memory.read (m.filter fun c => p c.1) a = if p a then Memory.read m a else 0 := by
  induction m with
  | nil => simp [Memory.read]
  | cons c m ih =>
    obtain ⟨k, b⟩ := c
    by_cases hp : p k <;> by_cases hk : k = a
    · subst hk; simp [Memory.read, hp]
    · simp [Memory.read, hp, hk, ih]
    · subst hk; simp [hp, ih]
    · simp [Memory.read, hp, hk, ih]

theorem Memory.mem_cells {a : Nat} {bs : List Byte} {c : Host.Cell} (h : c ∈ Memory.cells a bs) :
    a ≤ c.1 ∧ c.1 < a + bs.length ∧ c.2 ≠ 0 := by
  induction bs generalizing a with
  | nil => simp [Memory.cells] at h
  | cons b bs ih =>
    unfold Memory.cells at h
    split at h
    · have := ih h
      simp only [List.length_cons]
      exact ⟨by omega, by omega, this.2.2⟩
    · rename_i hb
      rcases List.mem_cons.1 h with rfl | h
      · exact ⟨le_refl _, by simp, hb⟩
      · have := ih h
        simp only [List.length_cons]
        exact ⟨by omega, by omega, this.2.2⟩

theorem Memory.read_cells (a : Nat) (bs : List Byte) (x : Nat) :
    Memory.read (Memory.cells a bs) x = if a ≤ x ∧ x < a + bs.length then bs.getD (x - a) 0 else 0 := by
  induction bs generalizing a with
  | nil => simp [Memory.cells, Memory.read]
  | cons b bs ih =>
    by_cases hx : x = a
    · subst hx
      by_cases hb : b = 0
      · rw [Memory.cells, if_pos hb, ih]; simp [hb]
      · rw [Memory.cells, if_neg hb]; simp [Memory.read]
    · have hsub : ∀ h : a ≤ x, x - a = (x - (a + 1)) + 1 := by omega
      have key : Memory.read (Memory.cells a (b :: bs)) x = Memory.read (Memory.cells (a + 1) bs) x := by
        by_cases hb : b = 0
        · rw [Memory.cells, if_pos hb]
        · rw [Memory.cells, if_neg hb, Memory.read, if_neg (Ne.symm hx)]
      rw [key, ih]
      by_cases hax : a ≤ x
      · rw [hsub hax, List.getD_cons_succ]
        simp only [List.length_cons]
        congr 1
        simp only [eq_iff_iff]; omega
      · rw [if_neg (by omega), if_neg (by omega)]

/-- After a run is written, an address inside it reads its byte of the run and every other address reads as before. -/
theorem Memory.read_writeRun (a : Nat) (bs : List Byte) (m : Memory) (x : Nat) :
    Memory.read (Memory.writeRun a bs m) x =
      if a ≤ x ∧ x < a + bs.length then bs.getD (x - a) 0 else Memory.read m x := by
  have hlow := Memory.read_filter m (fun k => decide (k < a)) x
  have hhigh := Memory.read_filter m (fun k => decide (a + bs.length ≤ k)) x
  simp only [decide_eq_true_eq] at hlow hhigh
  have hcells := Memory.read_cells a bs x
  have below : ∀ c ∈ m.filter (fun c => decide (c.1 < a)), c.1 < a := fun c hc => by
    simpa using (List.mem_filter.1 hc).2
  have above : ∀ c ∈ m.filter (fun c => decide (a + bs.length ≤ c.1)), a + bs.length ≤ c.1 := fun c hc => by
    simpa using (List.mem_filter.1 hc).2
  unfold Memory.writeRun
  rw [Memory.read_append, Memory.read_append]
  by_cases h1 : x < a
  · rw [if_neg (by omega : ¬(a ≤ x ∧ x < a + bs.length))]
    by_cases h2 : ∃ c ∈ m.filter (fun c => decide (c.1 < a)), c.1 = x
    · obtain ⟨c, hc, hcx⟩ := h2
      rw [if_pos ⟨c, List.mem_append_left _ hc, hcx⟩, if_pos ⟨c, hc, hcx⟩, hlow, if_pos h1]
    · have hz : Memory.read m x = 0 := by
        rw [← (if_pos h1 : (if x < a then Memory.read m x else 0) = _), ← hlow]
        exact Memory.read_eq_zero fun c hc hcx => h2 ⟨c, hc, hcx⟩
      rw [if_neg h2, hcells, if_neg (by omega : ¬(a ≤ x ∧ x < a + bs.length)), hhigh,
        if_neg (by omega : ¬a + bs.length ≤ x), hz, ite_self]
  · have h2 : ¬∃ c ∈ m.filter (fun c => decide (c.1 < a)), c.1 = x := fun ⟨c, hc, hcx⟩ => by
      have := below c hc
      omega
    rw [if_neg h2]
    by_cases h3 : x < a + bs.length
    · rw [if_pos (⟨by omega, h3⟩ : a ≤ x ∧ x < a + bs.length)]
      rw [if_pos (⟨by omega, h3⟩ : a ≤ x ∧ x < a + bs.length)] at hcells
      by_cases h4 : ∃ c ∈ m.filter (fun c => decide (c.1 < a)) ++ Memory.cells a bs, c.1 = x
      · rw [if_pos h4, hcells]
      · rw [if_neg h4, hhigh, if_neg (by omega), ← hcells]
        exact (Memory.read_eq_zero fun c hc hcx => h4 ⟨c, List.mem_append_right _ hc, hcx⟩).symm
    · have h4 : ¬∃ c ∈ m.filter (fun c => decide (c.1 < a)) ++ Memory.cells a bs, c.1 = x := by
        rintro ⟨c, hc, hcx⟩
        rcases List.mem_append.1 hc with hc | hc
        · have := below c hc
          omega
        · have := Memory.mem_cells hc
          omega
      rw [if_neg h4, hhigh, if_pos (by omega), if_neg (by omega)]

theorem Memory.cells_pairwise (a : Nat) (bs : List Byte) :
    (Memory.cells a bs).Pairwise (fun x y => x.1 < y.1) := by
  induction bs generalizing a with
  | nil => simp [Memory.cells]
  | cons b bs ih =>
    unfold Memory.cells
    split
    · exact ih _
    · refine List.pairwise_cons.2 ⟨fun c hc => ?_, ih _⟩
      have := Memory.mem_cells hc
      simp only; omega

theorem Memory.wf_writeRun {a : Nat} {bs : List Byte} {m : Memory} (h : Memory.wf m) (hb : a + bs.length ≤ ringSize) :
    Memory.wf (Memory.writeRun a bs m) := by
  have below : ∀ c ∈ m.filter (fun c => decide (c.1 < a)), c ∈ m ∧ c.1 < a := fun c hc => by
    simpa using List.mem_filter.1 hc
  have above : ∀ c ∈ m.filter (fun c => decide (a + bs.length ≤ c.1)), c ∈ m ∧ a + bs.length ≤ c.1 := fun c hc => by
    simpa using List.mem_filter.1 hc
  refine ⟨?_, ?_⟩
  · unfold Memory.writeRun
    refine List.pairwise_append.2 ⟨List.pairwise_append.2 ⟨h.1.filter _, Memory.cells_pairwise _ _, ?_⟩,
      h.1.filter _, ?_⟩
    · intro c hc d hd
      have h1 := below c hc
      have h2 := Memory.mem_cells hd
      omega
    · intro c hc d hd
      have h2 := above d hd
      rcases List.mem_append.1 hc with hc | hc
      · have h1 := below c hc; omega
      · have h1 := Memory.mem_cells hc; omega
  · intro c hc
    unfold Memory.writeRun at hc
    rcases List.mem_append.1 hc with hc | hc
    · rcases List.mem_append.1 hc with hc | hc
      · exact h.2 c (below c hc).1
      · have := Memory.mem_cells hc
        exact ⟨by omega, this.2.2⟩
    · exact h.2 c (above c hc).1

/-- Every write keeps the canonical form. -/
theorem Memory.wf_writeBytes {m : Memory} (h : Memory.wf m) (a : Nat) (bs : List Byte) :
    Memory.wf (Memory.writeBytes a bs m) := by
  have hpos : (a + (bs.length - ringSize)) % ringSize < ringSize := Nat.mod_lt _ (by decide)
  unfold Memory.writeBytes
  refine Memory.wf_writeRun (Memory.wf_writeRun h ?_) ?_
  · simp only [List.length_take, List.length_drop]; omega
  · simp only [List.length_drop]; omega

/-- The free draw of a system reset is in canonical form. -/
theorem Memory.wf_ofDraw (f : Nat → Byte) : Memory.wf (Memory.ofDraw f) := by
  refine ⟨Memory.cells_pairwise _ _, fun c hc => ?_⟩
  have h := Memory.mem_cells hc
  rw [List.length_map, List.length_range, Nat.zero_add] at h
  exact h.2

theorem Memory.wf_nil : Memory.wf [] := ⟨List.Pairwise.nil, fun _ h => absurd h List.not_mem_nil⟩

/-- The ring at power-on is in canonical form. -/
theorem State.reset_ring_wf : Memory.wf State.reset.ring := Memory.wf_nil

/-- After `MemWriteBytes(a, bs)` (R55) of no more bytes than the ring holds, the address that lies `i` bytes past `a` in
the window reads `bs[i]` where there is one, and as before where there is none. -/
theorem Memory.read_writeBytes (m : Memory) {a x : Nat} {bs : List Byte} (hl : bs.length ≤ ringSize)
    (hx : x < ringSize) :
    Memory.read (Memory.writeBytes a bs m) x =
      if (x + ringSize - a % ringSize) % ringSize < bs.length
      then bs.getD ((x + ringSize - a % ringSize) % ringSize) 0 else Memory.read m x := by
  have hs : bs.length - ringSize = 0 := by omega
  unfold Memory.writeBytes
  rw [Memory.read_writeRun, Memory.read_writeRun]
  simp only [hs, Nat.add_zero, List.drop_zero, List.length_drop, List.length_take, Nat.zero_le, true_and, Nat.sub_zero,
    Nat.zero_add]
  have ha : a % ringSize < ringSize := Nat.mod_lt _ (by decide)
  generalize a % ringSize = p at ha ⊢
  generalize ringSize = R at *
  by_cases hpx : p ≤ x
  · have e : (x + R - p) % R = x - p := by
      rw [show x + R - p = x - p + R by omega, Nat.add_mod_right, Nat.mod_eq_of_lt (by omega)]
    simp only [e]
    rw [if_neg (by omega)]
    by_cases h2 : x - p < bs.length
    · rw [if_pos (by omega), if_pos h2]
      simp only [List.getD_eq_getElem?_getD]
      rw [List.getElem?_take_of_lt (by omega)]
    · rw [if_neg (by omega), if_neg h2]
  · have e : (x + R - p) % R = x + R - p := Nat.mod_eq_of_lt (by omega)
    simp only [e]
    by_cases h2 : x + R - p < bs.length
    · rw [if_pos (by omega), if_pos h2]
      simp only [List.getD_eq_getElem?_getD, List.getElem?_drop]
      congr 2
      omega
    · rw [if_neg (by omega), if_neg (by omega), if_neg h2]

end Sys2Proof.Machine
end

