-- ==== Sys2Proof/Laws/State.lean ====
section
/-! SUPPORT. One lemma per field per update of the state, so that no later proof unfolds a record update. -/

namespace Sys2Proof.Machine

@[simp] theorem State.setLatch_regfile (s : State) (k : Slot) : (s.setLatch k).regfile = { address := k } := rfl
@[simp] theorem State.setLatch_status (s : State) (k : Slot) : (s.setLatch k).status = s.status := rfl
@[simp] theorem State.setLatch_decoder (s : State) (k : Slot) : (s.setLatch k).decoder = s.decoder := rfl
@[simp] theorem State.setLatch_header (s : State) (k : Slot) : (s.setLatch k).header = s.header := rfl
@[simp] theorem State.setLatch_control (s : State) (k : Slot) : (s.setLatch k).control = s.control := rfl
@[simp] theorem State.setLatch_transfer (s : State) (k : Slot) : (s.setLatch k).transfer = s.transfer := rfl
@[simp] theorem State.setLatch_irq (s : State) (k : Slot) : (s.setLatch k).irq = s.irq := rfl
@[simp] theorem State.setLatch_ring (s : State) (k : Slot) : (s.setLatch k).ring = s.ring := rfl
@[simp] theorem State.setLatch_cmdfifo (s : State) (k : Slot) : (s.setLatch k).cmdfifo = s.cmdfifo := rfl
@[simp] theorem State.setLatch_statfifo (s : State) (k : Slot) : (s.setLatch k).statfifo = s.statfifo := rfl
@[simp] theorem State.setLatch_stopwatch (s : State) (k : Slot) : (s.setLatch k).stopwatch = s.stopwatch := rfl
@[simp] theorem State.setLatch_input (s : State) (k : Slot) : (s.setLatch k).input = s.input := rfl
@[simp] theorem State.setLatch_response (s : State) (k : Slot) : (s.setLatch k).response = s.response := rfl
@[simp] theorem State.setLatch_events (s : State) (k : Slot) : (s.setLatch k).events = s.events := rfl
@[simp] theorem State.setLatch_disc (s : State) (k : Slot) : (s.setLatch k).disc = s.disc := rfl
@[simp] theorem State.setLatch_draws (s : State) (k : Slot) : (s.setLatch k).draws = s.draws := rfl

@[simp] theorem State.setStatus_regfile (s : State) (x : Status) : (s.setStatus x).regfile = s.regfile := rfl
@[simp] theorem State.setStatus_status (s : State) (x : Status) : (s.setStatus x).status = x := rfl
@[simp] theorem State.setStatus_decoder (s : State) (x : Status) : (s.setStatus x).decoder = s.decoder := rfl
@[simp] theorem State.setStatus_header (s : State) (x : Status) : (s.setStatus x).header = s.header := rfl
@[simp] theorem State.setStatus_control (s : State) (x : Status) : (s.setStatus x).control = s.control := rfl
@[simp] theorem State.setStatus_transfer (s : State) (x : Status) : (s.setStatus x).transfer = s.transfer := rfl
@[simp] theorem State.setStatus_irq (s : State) (x : Status) : (s.setStatus x).irq = s.irq := rfl
@[simp] theorem State.setStatus_ring (s : State) (x : Status) : (s.setStatus x).ring = s.ring := rfl
@[simp] theorem State.setStatus_cmdfifo (s : State) (x : Status) : (s.setStatus x).cmdfifo = s.cmdfifo := rfl
@[simp] theorem State.setStatus_statfifo (s : State) (x : Status) : (s.setStatus x).statfifo = s.statfifo := rfl
@[simp] theorem State.setStatus_stopwatch (s : State) (x : Status) : (s.setStatus x).stopwatch = s.stopwatch := rfl
@[simp] theorem State.setStatus_input (s : State) (x : Status) : (s.setStatus x).input = s.input := rfl
@[simp] theorem State.setStatus_response (s : State) (x : Status) : (s.setStatus x).response = s.response := rfl
@[simp] theorem State.setStatus_events (s : State) (x : Status) : (s.setStatus x).events = s.events := rfl
@[simp] theorem State.setStatus_disc (s : State) (x : Status) : (s.setStatus x).disc = s.disc := rfl
@[simp] theorem State.setStatus_draws (s : State) (x : Status) : (s.setStatus x).draws = s.draws := rfl

@[simp] theorem State.setDecoder_regfile (s : State) (x : Decoder) : (s.setDecoder x).regfile = s.regfile := rfl
@[simp] theorem State.setDecoder_status (s : State) (x : Decoder) : (s.setDecoder x).status = s.status := rfl
@[simp] theorem State.setDecoder_decoder (s : State) (x : Decoder) : (s.setDecoder x).decoder = x := rfl
@[simp] theorem State.setDecoder_header (s : State) (x : Decoder) : (s.setDecoder x).header = s.header := rfl
@[simp] theorem State.setDecoder_control (s : State) (x : Decoder) : (s.setDecoder x).control = s.control := rfl
@[simp] theorem State.setDecoder_transfer (s : State) (x : Decoder) : (s.setDecoder x).transfer = s.transfer := rfl
@[simp] theorem State.setDecoder_irq (s : State) (x : Decoder) : (s.setDecoder x).irq = s.irq := rfl
@[simp] theorem State.setDecoder_ring (s : State) (x : Decoder) : (s.setDecoder x).ring = s.ring := rfl
@[simp] theorem State.setDecoder_cmdfifo (s : State) (x : Decoder) : (s.setDecoder x).cmdfifo = s.cmdfifo := rfl
@[simp] theorem State.setDecoder_statfifo (s : State) (x : Decoder) : (s.setDecoder x).statfifo = s.statfifo := rfl
@[simp] theorem State.setDecoder_stopwatch (s : State) (x : Decoder) : (s.setDecoder x).stopwatch = s.stopwatch := rfl
@[simp] theorem State.setDecoder_input (s : State) (x : Decoder) : (s.setDecoder x).input = s.input := rfl
@[simp] theorem State.setDecoder_response (s : State) (x : Decoder) : (s.setDecoder x).response = s.response := rfl
@[simp] theorem State.setDecoder_events (s : State) (x : Decoder) : (s.setDecoder x).events = s.events := rfl
@[simp] theorem State.setDecoder_disc (s : State) (x : Decoder) : (s.setDecoder x).disc = s.disc := rfl
@[simp] theorem State.setDecoder_draws (s : State) (x : Decoder) : (s.setDecoder x).draws = s.draws := rfl

@[simp] theorem State.setHeader_regfile (s : State) (x : Header) : (s.setHeader x).regfile = s.regfile := rfl
@[simp] theorem State.setHeader_status (s : State) (x : Header) : (s.setHeader x).status = s.status := rfl
@[simp] theorem State.setHeader_decoder (s : State) (x : Header) : (s.setHeader x).decoder = s.decoder := rfl
@[simp] theorem State.setHeader_header (s : State) (x : Header) : (s.setHeader x).header = x := rfl
@[simp] theorem State.setHeader_control (s : State) (x : Header) : (s.setHeader x).control = s.control := rfl
@[simp] theorem State.setHeader_transfer (s : State) (x : Header) : (s.setHeader x).transfer = s.transfer := rfl
@[simp] theorem State.setHeader_irq (s : State) (x : Header) : (s.setHeader x).irq = s.irq := rfl
@[simp] theorem State.setHeader_ring (s : State) (x : Header) : (s.setHeader x).ring = s.ring := rfl
@[simp] theorem State.setHeader_cmdfifo (s : State) (x : Header) : (s.setHeader x).cmdfifo = s.cmdfifo := rfl
@[simp] theorem State.setHeader_statfifo (s : State) (x : Header) : (s.setHeader x).statfifo = s.statfifo := rfl
@[simp] theorem State.setHeader_stopwatch (s : State) (x : Header) : (s.setHeader x).stopwatch = s.stopwatch := rfl
@[simp] theorem State.setHeader_input (s : State) (x : Header) : (s.setHeader x).input = s.input := rfl
@[simp] theorem State.setHeader_response (s : State) (x : Header) : (s.setHeader x).response = s.response := rfl
@[simp] theorem State.setHeader_events (s : State) (x : Header) : (s.setHeader x).events = s.events := rfl
@[simp] theorem State.setHeader_disc (s : State) (x : Header) : (s.setHeader x).disc = s.disc := rfl
@[simp] theorem State.setHeader_draws (s : State) (x : Header) : (s.setHeader x).draws = s.draws := rfl

@[simp] theorem State.setControl_regfile (s : State) (x : Control) : (s.setControl x).regfile = s.regfile := rfl
@[simp] theorem State.setControl_status (s : State) (x : Control) : (s.setControl x).status = s.status := rfl
@[simp] theorem State.setControl_decoder (s : State) (x : Control) : (s.setControl x).decoder = s.decoder := rfl
@[simp] theorem State.setControl_header (s : State) (x : Control) : (s.setControl x).header = s.header := rfl
@[simp] theorem State.setControl_control (s : State) (x : Control) : (s.setControl x).control = x := rfl
@[simp] theorem State.setControl_transfer (s : State) (x : Control) : (s.setControl x).transfer = s.transfer := rfl
@[simp] theorem State.setControl_irq (s : State) (x : Control) : (s.setControl x).irq = s.irq := rfl
@[simp] theorem State.setControl_ring (s : State) (x : Control) : (s.setControl x).ring = s.ring := rfl
@[simp] theorem State.setControl_cmdfifo (s : State) (x : Control) : (s.setControl x).cmdfifo = s.cmdfifo := rfl
@[simp] theorem State.setControl_statfifo (s : State) (x : Control) : (s.setControl x).statfifo = s.statfifo := rfl
@[simp] theorem State.setControl_stopwatch (s : State) (x : Control) : (s.setControl x).stopwatch = s.stopwatch := rfl
@[simp] theorem State.setControl_input (s : State) (x : Control) : (s.setControl x).input = s.input := rfl
@[simp] theorem State.setControl_response (s : State) (x : Control) : (s.setControl x).response = s.response := rfl
@[simp] theorem State.setControl_events (s : State) (x : Control) : (s.setControl x).events = s.events := rfl
@[simp] theorem State.setControl_disc (s : State) (x : Control) : (s.setControl x).disc = s.disc := rfl
@[simp] theorem State.setControl_draws (s : State) (x : Control) : (s.setControl x).draws = s.draws := rfl

@[simp] theorem State.setTransfer_regfile (s : State) (x : Transfer) : (s.setTransfer x).regfile = s.regfile := rfl
@[simp] theorem State.setTransfer_status (s : State) (x : Transfer) : (s.setTransfer x).status = s.status := rfl
@[simp] theorem State.setTransfer_decoder (s : State) (x : Transfer) : (s.setTransfer x).decoder = s.decoder := rfl
@[simp] theorem State.setTransfer_header (s : State) (x : Transfer) : (s.setTransfer x).header = s.header := rfl
@[simp] theorem State.setTransfer_control (s : State) (x : Transfer) : (s.setTransfer x).control = s.control := rfl
@[simp] theorem State.setTransfer_transfer (s : State) (x : Transfer) : (s.setTransfer x).transfer = x := rfl
@[simp] theorem State.setTransfer_irq (s : State) (x : Transfer) : (s.setTransfer x).irq = s.irq := rfl
@[simp] theorem State.setTransfer_ring (s : State) (x : Transfer) : (s.setTransfer x).ring = s.ring := rfl
@[simp] theorem State.setTransfer_cmdfifo (s : State) (x : Transfer) : (s.setTransfer x).cmdfifo = s.cmdfifo := rfl
@[simp] theorem State.setTransfer_statfifo (s : State) (x : Transfer) : (s.setTransfer x).statfifo = s.statfifo := rfl
@[simp] theorem State.setTransfer_stopwatch (s : State) (x : Transfer) : (s.setTransfer x).stopwatch = s.stopwatch := rfl
@[simp] theorem State.setTransfer_input (s : State) (x : Transfer) : (s.setTransfer x).input = s.input := rfl
@[simp] theorem State.setTransfer_response (s : State) (x : Transfer) : (s.setTransfer x).response = s.response := rfl
@[simp] theorem State.setTransfer_events (s : State) (x : Transfer) : (s.setTransfer x).events = s.events := rfl
@[simp] theorem State.setTransfer_disc (s : State) (x : Transfer) : (s.setTransfer x).disc = s.disc := rfl
@[simp] theorem State.setTransfer_draws (s : State) (x : Transfer) : (s.setTransfer x).draws = s.draws := rfl

@[simp] theorem State.setIrq_regfile (s : State) (x : Irq) : (s.setIrq x).regfile = s.regfile := rfl
@[simp] theorem State.setIrq_status (s : State) (x : Irq) : (s.setIrq x).status = s.status := rfl
@[simp] theorem State.setIrq_decoder (s : State) (x : Irq) : (s.setIrq x).decoder = s.decoder := rfl
@[simp] theorem State.setIrq_header (s : State) (x : Irq) : (s.setIrq x).header = s.header := rfl
@[simp] theorem State.setIrq_control (s : State) (x : Irq) : (s.setIrq x).control = s.control := rfl
@[simp] theorem State.setIrq_transfer (s : State) (x : Irq) : (s.setIrq x).transfer = s.transfer := rfl
@[simp] theorem State.setIrq_irq (s : State) (x : Irq) : (s.setIrq x).irq = x := rfl
@[simp] theorem State.setIrq_ring (s : State) (x : Irq) : (s.setIrq x).ring = s.ring := rfl
@[simp] theorem State.setIrq_cmdfifo (s : State) (x : Irq) : (s.setIrq x).cmdfifo = s.cmdfifo := rfl
@[simp] theorem State.setIrq_statfifo (s : State) (x : Irq) : (s.setIrq x).statfifo = s.statfifo := rfl
@[simp] theorem State.setIrq_stopwatch (s : State) (x : Irq) : (s.setIrq x).stopwatch = s.stopwatch := rfl
@[simp] theorem State.setIrq_input (s : State) (x : Irq) : (s.setIrq x).input = s.input := rfl
@[simp] theorem State.setIrq_response (s : State) (x : Irq) : (s.setIrq x).response = s.response := rfl
@[simp] theorem State.setIrq_events (s : State) (x : Irq) : (s.setIrq x).events = s.events := rfl
@[simp] theorem State.setIrq_disc (s : State) (x : Irq) : (s.setIrq x).disc = s.disc := rfl
@[simp] theorem State.setIrq_draws (s : State) (x : Irq) : (s.setIrq x).draws = s.draws := rfl

@[simp] theorem State.setRing_regfile (s : State) (m : Memory) : (s.setRing m).regfile = s.regfile := rfl
@[simp] theorem State.setRing_status (s : State) (m : Memory) : (s.setRing m).status = s.status := rfl
@[simp] theorem State.setRing_decoder (s : State) (m : Memory) : (s.setRing m).decoder = s.decoder := rfl
@[simp] theorem State.setRing_header (s : State) (m : Memory) : (s.setRing m).header = s.header := rfl
@[simp] theorem State.setRing_control (s : State) (m : Memory) : (s.setRing m).control = s.control := rfl
@[simp] theorem State.setRing_transfer (s : State) (m : Memory) : (s.setRing m).transfer = s.transfer := rfl
@[simp] theorem State.setRing_irq (s : State) (m : Memory) : (s.setRing m).irq = s.irq := rfl
@[simp] theorem State.setRing_ring (s : State) (m : Memory) : (s.setRing m).ring = m := rfl
@[simp] theorem State.setRing_cmdfifo (s : State) (m : Memory) : (s.setRing m).cmdfifo = s.cmdfifo := rfl
@[simp] theorem State.setRing_statfifo (s : State) (m : Memory) : (s.setRing m).statfifo = s.statfifo := rfl
@[simp] theorem State.setRing_stopwatch (s : State) (m : Memory) : (s.setRing m).stopwatch = s.stopwatch := rfl
@[simp] theorem State.setRing_input (s : State) (m : Memory) : (s.setRing m).input = s.input := rfl
@[simp] theorem State.setRing_response (s : State) (m : Memory) : (s.setRing m).response = s.response := rfl
@[simp] theorem State.setRing_events (s : State) (m : Memory) : (s.setRing m).events = s.events := rfl
@[simp] theorem State.setRing_disc (s : State) (m : Memory) : (s.setRing m).disc = s.disc := rfl
@[simp] theorem State.setRing_draws (s : State) (m : Memory) : (s.setRing m).draws = s.draws := rfl

@[simp] theorem State.setFifos_regfile (s : State) (c t : Fifo) : (s.setFifos c t).regfile = s.regfile := rfl
@[simp] theorem State.setFifos_status (s : State) (c t : Fifo) : (s.setFifos c t).status = s.status := rfl
@[simp] theorem State.setFifos_decoder (s : State) (c t : Fifo) : (s.setFifos c t).decoder = s.decoder := rfl
@[simp] theorem State.setFifos_header (s : State) (c t : Fifo) : (s.setFifos c t).header = s.header := rfl
@[simp] theorem State.setFifos_control (s : State) (c t : Fifo) : (s.setFifos c t).control = s.control := rfl
@[simp] theorem State.setFifos_transfer (s : State) (c t : Fifo) : (s.setFifos c t).transfer = s.transfer := rfl
@[simp] theorem State.setFifos_irq (s : State) (c t : Fifo) : (s.setFifos c t).irq = s.irq := rfl
@[simp] theorem State.setFifos_ring (s : State) (c t : Fifo) : (s.setFifos c t).ring = s.ring := rfl
@[simp] theorem State.setFifos_cmdfifo (s : State) (c t : Fifo) : (s.setFifos c t).cmdfifo = c := rfl
@[simp] theorem State.setFifos_statfifo (s : State) (c t : Fifo) : (s.setFifos c t).statfifo = t := rfl
@[simp] theorem State.setFifos_stopwatch (s : State) (c t : Fifo) : (s.setFifos c t).stopwatch = s.stopwatch := rfl
@[simp] theorem State.setFifos_input (s : State) (c t : Fifo) : (s.setFifos c t).input = s.input := rfl
@[simp] theorem State.setFifos_response (s : State) (c t : Fifo) : (s.setFifos c t).response = s.response := rfl
@[simp] theorem State.setFifos_events (s : State) (c t : Fifo) : (s.setFifos c t).events = s.events := rfl
@[simp] theorem State.setFifos_disc (s : State) (c t : Fifo) : (s.setFifos c t).disc = s.disc := rfl
@[simp] theorem State.setFifos_draws (s : State) (c t : Fifo) : (s.setFifos c t).draws = s.draws := rfl

@[simp] theorem State.setStopwatch_regfile (s : State) (n : BitVec 12) : (s.setStopwatch n).regfile = s.regfile := rfl
@[simp] theorem State.setStopwatch_status (s : State) (n : BitVec 12) : (s.setStopwatch n).status = s.status := rfl
@[simp] theorem State.setStopwatch_decoder (s : State) (n : BitVec 12) : (s.setStopwatch n).decoder = s.decoder := rfl
@[simp] theorem State.setStopwatch_header (s : State) (n : BitVec 12) : (s.setStopwatch n).header = s.header := rfl
@[simp] theorem State.setStopwatch_control (s : State) (n : BitVec 12) : (s.setStopwatch n).control = s.control := rfl
@[simp] theorem State.setStopwatch_transfer (s : State) (n : BitVec 12) : (s.setStopwatch n).transfer = s.transfer := rfl
@[simp] theorem State.setStopwatch_irq (s : State) (n : BitVec 12) : (s.setStopwatch n).irq = s.irq := rfl
@[simp] theorem State.setStopwatch_ring (s : State) (n : BitVec 12) : (s.setStopwatch n).ring = s.ring := rfl
@[simp] theorem State.setStopwatch_cmdfifo (s : State) (n : BitVec 12) : (s.setStopwatch n).cmdfifo = s.cmdfifo := rfl
@[simp] theorem State.setStopwatch_statfifo (s : State) (n : BitVec 12) : (s.setStopwatch n).statfifo = s.statfifo := rfl
@[simp] theorem State.setStopwatch_stopwatch (s : State) (n : BitVec 12) : (s.setStopwatch n).stopwatch = n := rfl
@[simp] theorem State.setStopwatch_input (s : State) (n : BitVec 12) : (s.setStopwatch n).input = s.input := rfl
@[simp] theorem State.setStopwatch_response (s : State) (n : BitVec 12) : (s.setStopwatch n).response = s.response := rfl
@[simp] theorem State.setStopwatch_events (s : State) (n : BitVec 12) : (s.setStopwatch n).events = s.events := rfl
@[simp] theorem State.setStopwatch_disc (s : State) (n : BitVec 12) : (s.setStopwatch n).disc = s.disc := rfl
@[simp] theorem State.setStopwatch_draws (s : State) (n : BitVec 12) : (s.setStopwatch n).draws = s.draws := rfl

@[simp] theorem State.setInput_regfile (s : State) (bs : List Byte) : (s.setInput bs).regfile = s.regfile := rfl
@[simp] theorem State.setInput_status (s : State) (bs : List Byte) : (s.setInput bs).status = s.status := rfl
@[simp] theorem State.setInput_decoder (s : State) (bs : List Byte) : (s.setInput bs).decoder = s.decoder := rfl
@[simp] theorem State.setInput_header (s : State) (bs : List Byte) : (s.setInput bs).header = s.header := rfl
@[simp] theorem State.setInput_control (s : State) (bs : List Byte) : (s.setInput bs).control = s.control := rfl
@[simp] theorem State.setInput_transfer (s : State) (bs : List Byte) : (s.setInput bs).transfer = s.transfer := rfl
@[simp] theorem State.setInput_irq (s : State) (bs : List Byte) : (s.setInput bs).irq = s.irq := rfl
@[simp] theorem State.setInput_ring (s : State) (bs : List Byte) : (s.setInput bs).ring = s.ring := rfl
@[simp] theorem State.setInput_cmdfifo (s : State) (bs : List Byte) : (s.setInput bs).cmdfifo = s.cmdfifo := rfl
@[simp] theorem State.setInput_statfifo (s : State) (bs : List Byte) : (s.setInput bs).statfifo = s.statfifo := rfl
@[simp] theorem State.setInput_stopwatch (s : State) (bs : List Byte) : (s.setInput bs).stopwatch = s.stopwatch := rfl
@[simp] theorem State.setInput_input (s : State) (bs : List Byte) : (s.setInput bs).input = bs := rfl
@[simp] theorem State.setInput_response (s : State) (bs : List Byte) : (s.setInput bs).response = s.response := rfl
@[simp] theorem State.setInput_events (s : State) (bs : List Byte) : (s.setInput bs).events = s.events := rfl
@[simp] theorem State.setInput_disc (s : State) (bs : List Byte) : (s.setInput bs).disc = s.disc := rfl
@[simp] theorem State.setInput_draws (s : State) (bs : List Byte) : (s.setInput bs).draws = s.draws := rfl

@[simp] theorem State.respond_regfile (s : State) (r : Response) : (s.respond r).regfile = s.regfile := rfl
@[simp] theorem State.respond_status (s : State) (r : Response) : (s.respond r).status = s.status := rfl
@[simp] theorem State.respond_decoder (s : State) (r : Response) : (s.respond r).decoder = s.decoder := rfl
@[simp] theorem State.respond_header (s : State) (r : Response) : (s.respond r).header = s.header := rfl
@[simp] theorem State.respond_control (s : State) (r : Response) : (s.respond r).control = s.control := rfl
@[simp] theorem State.respond_transfer (s : State) (r : Response) : (s.respond r).transfer = s.transfer := rfl
@[simp] theorem State.respond_irq (s : State) (r : Response) : (s.respond r).irq = s.irq := rfl
@[simp] theorem State.respond_ring (s : State) (r : Response) : (s.respond r).ring = s.ring := rfl
@[simp] theorem State.respond_cmdfifo (s : State) (r : Response) : (s.respond r).cmdfifo = s.cmdfifo := rfl
@[simp] theorem State.respond_statfifo (s : State) (r : Response) : (s.respond r).statfifo = s.statfifo := rfl
@[simp] theorem State.respond_stopwatch (s : State) (r : Response) : (s.respond r).stopwatch = s.stopwatch := rfl
@[simp] theorem State.respond_input (s : State) (r : Response) : (s.respond r).input = s.input := rfl
@[simp] theorem State.respond_response (s : State) (r : Response) : (s.respond r).response = r := rfl
@[simp] theorem State.respond_events (s : State) (r : Response) : (s.respond r).events = s.events := rfl
@[simp] theorem State.respond_disc (s : State) (r : Response) : (s.respond r).disc = s.disc := rfl
@[simp] theorem State.respond_draws (s : State) (r : Response) : (s.respond r).draws = s.draws := rfl

@[simp] theorem State.emit_regfile (s : State) (e : Event) : (s.emit e).regfile = s.regfile := rfl
@[simp] theorem State.emit_status (s : State) (e : Event) : (s.emit e).status = s.status := rfl
@[simp] theorem State.emit_decoder (s : State) (e : Event) : (s.emit e).decoder = s.decoder := rfl
@[simp] theorem State.emit_header (s : State) (e : Event) : (s.emit e).header = s.header := rfl
@[simp] theorem State.emit_control (s : State) (e : Event) : (s.emit e).control = s.control := rfl
@[simp] theorem State.emit_transfer (s : State) (e : Event) : (s.emit e).transfer = s.transfer := rfl
@[simp] theorem State.emit_irq (s : State) (e : Event) : (s.emit e).irq = s.irq := rfl
@[simp] theorem State.emit_ring (s : State) (e : Event) : (s.emit e).ring = s.ring := rfl
@[simp] theorem State.emit_cmdfifo (s : State) (e : Event) : (s.emit e).cmdfifo = s.cmdfifo := rfl
@[simp] theorem State.emit_statfifo (s : State) (e : Event) : (s.emit e).statfifo = s.statfifo := rfl
@[simp] theorem State.emit_stopwatch (s : State) (e : Event) : (s.emit e).stopwatch = s.stopwatch := rfl
@[simp] theorem State.emit_input (s : State) (e : Event) : (s.emit e).input = s.input := rfl
@[simp] theorem State.emit_response (s : State) (e : Event) : (s.emit e).response = s.response := rfl
@[simp] theorem State.emit_events (s : State) (e : Event) : (s.emit e).events = s.events ++ [e] := rfl
@[simp] theorem State.emit_disc (s : State) (e : Event) : (s.emit e).disc = s.disc := rfl
@[simp] theorem State.emit_draws (s : State) (e : Event) : (s.emit e).draws = s.draws := rfl

@[simp] theorem State.countDraw_regfile (s : State) : (s.countDraw).regfile = s.regfile := rfl
@[simp] theorem State.countDraw_status (s : State) : (s.countDraw).status = s.status := rfl
@[simp] theorem State.countDraw_decoder (s : State) : (s.countDraw).decoder = s.decoder := rfl
@[simp] theorem State.countDraw_header (s : State) : (s.countDraw).header = s.header := rfl
@[simp] theorem State.countDraw_control (s : State) : (s.countDraw).control = s.control := rfl
@[simp] theorem State.countDraw_transfer (s : State) : (s.countDraw).transfer = s.transfer := rfl
@[simp] theorem State.countDraw_irq (s : State) : (s.countDraw).irq = s.irq := rfl
@[simp] theorem State.countDraw_ring (s : State) : (s.countDraw).ring = s.ring := rfl
@[simp] theorem State.countDraw_cmdfifo (s : State) : (s.countDraw).cmdfifo = s.cmdfifo := rfl
@[simp] theorem State.countDraw_statfifo (s : State) : (s.countDraw).statfifo = s.statfifo := rfl
@[simp] theorem State.countDraw_stopwatch (s : State) : (s.countDraw).stopwatch = s.stopwatch := rfl
@[simp] theorem State.countDraw_input (s : State) : (s.countDraw).input = s.input := rfl
@[simp] theorem State.countDraw_response (s : State) : (s.countDraw).response = s.response := rfl
@[simp] theorem State.countDraw_events (s : State) : (s.countDraw).events = s.events := rfl
@[simp] theorem State.countDraw_disc (s : State) : (s.countDraw).disc = s.disc := rfl
@[simp] theorem State.countDraw_draws (s : State) : (s.countDraw).draws = s.draws + 1 := rfl

end Sys2Proof.Machine
end

