-- ==== Sys2Proof/Laws/Ops.lean ====
section
/-! SUPPORT. One lemma per shared operation that says everything it can do, for citing instead of unfolding. -/

namespace Sys2Proof.Machine

/-! ### The line -/

@[simp] theorem publish_eq (s : State) : publish s = s := rfl

@[simp] theorem driveLine_regfile (s : State) : (driveLine s).regfile = s.regfile := rfl
@[simp] theorem driveLine_status (s : State) : (driveLine s).status = s.status := rfl
@[simp] theorem driveLine_decoder (s : State) : (driveLine s).decoder = s.decoder := rfl
@[simp] theorem driveLine_header (s : State) : (driveLine s).header = s.header := rfl
@[simp] theorem driveLine_control (s : State) : (driveLine s).control = s.control := rfl
@[simp] theorem driveLine_transfer (s : State) : (driveLine s).transfer = s.transfer := rfl
@[simp] theorem driveLine_irq (s : State) : (driveLine s).irq = { s.irq with line := s.irq.aggregate } := rfl
@[simp] theorem driveLine_ring (s : State) : (driveLine s).ring = s.ring := rfl
@[simp] theorem driveLine_cmdfifo (s : State) : (driveLine s).cmdfifo = s.cmdfifo := rfl
@[simp] theorem driveLine_statfifo (s : State) : (driveLine s).statfifo = s.statfifo := rfl
@[simp] theorem driveLine_stopwatch (s : State) : (driveLine s).stopwatch = s.stopwatch := rfl
@[simp] theorem driveLine_input (s : State) : (driveLine s).input = s.input := rfl
@[simp] theorem driveLine_response (s : State) : (driveLine s).response = s.response := rfl
@[simp] theorem driveLine_events (s : State) : (driveLine s).events = s.events ++ [if s.irq.aggregate then .irqRaise else .irqLower] := rfl
@[simp] theorem driveLine_disc (s : State) : (driveLine s).disc = s.disc := rfl
@[simp] theorem driveLine_draws (s : State) : (driveLine s).draws = s.draws := rfl

@[simp] theorem setTransferPending_eq (s : State) (b : Bool) :
    setTransferPending s b = s.setIrq { s.irq with transfer := { s.irq.transfer with pending := b } } := rfl

@[simp] theorem setDecoderPending_eq (s : State) (b : Bool) :
    setDecoderPending s b = s.setIrq { s.irq with decoder := { s.irq.decoder with pending := b } } := rfl

/-! ### The register window -/

theorem nextSlot_eq (k : Slot) : nextSlot k = if k = 0 ∨ k = 15 then 0 else k + 1 := by
  revert k; decide

theorem atSlot_of_eq {k : Slot} {s : State} (h : s.regfile.address = k) (r : Result) : atSlot k s r = r := if_pos h

theorem atSlot_of_ne {k : Slot} {s : State} (h : s.regfile.address ≠ k) (r : Result) :
    atSlot k s r = .refused .unknownTransaction := if_neg h

theorem windowRead_of_eq {k : Slot} {s : State} (h : s.regfile.address = k) (v : State → Byte) (e : State → State) :
    windowRead k v e s = .next (((e s).setLatch (nextSlot k)).respond (.u8 (v s))) := atSlot_of_eq h _

theorem windowWrite_of_eq {k : Slot} {s : State} (h : s.regfile.address = k) (b : State → State) :
    windowWrite k b s = .next (((b s).setLatch (nextSlot k)).respond .none) := atSlot_of_eq h _

/-- A window read answers a next state exactly at its slot, and then this one. -/
theorem windowRead_next {k : Slot} {v : State → Byte} {e : State → State} {s t : State} :
    windowRead k v e s = .next t ↔
      s.regfile.address = k ∧ t = ((e s).setLatch (nextSlot k)).respond (.u8 (v s)) := by
  unfold windowRead atSlot
  split <;> simp_all [eq_comm]

/-- A window write answers a next state exactly at its slot, and then this one. -/
theorem windowWrite_next {k : Slot} {b : State → State} {s t : State} :
    windowWrite k b s = .next t ↔ s.regfile.address = k ∧ t = ((b s).setLatch (nextSlot k)).respond .none := by
  unfold windowWrite atSlot
  split <;> simp_all [eq_comm]

/-- A header read answers a next state exactly at its slot in header mode. -/
theorem headRead_next {k : Slot} {f : Header → Byte} {s t : State} :
    headRead k f s = .next t ↔
      s.control.head = false ∧ s.regfile.address = k ∧ t = (s.setLatch (nextSlot k)).respond (.u8 (f s.header)) := by
  unfold headRead
  split
  · unfold atSlot; split <;> simp_all
  · rw [windowRead_next]; simp_all

theorem finish_next {s t : State} : finish s = .next t ↔ t = s.respond .none := by
  simp [finish, eq_comm]

theorem answer_next {r : Response} {s t : State} : answer r s = .next t ↔ t = s.respond r := by
  simp [answer, eq_comm]

/-! ### The transfer engine -/

theorem startTransfer_of_disabled {s : State} (h : s.transfer.enable = false) : startTransfer s = s := by
  simp [startTransfer, h]

theorem startTransfer_of_enabled {s : State} (h : s.transfer.enable = true) :
    startTransfer s = driveLine ((s.setTransfer { s.transfer with
      active := true, busy := true, ready := isHostDestination s.transfer.destination, completed := false }).setIrq
      { s.irq with transfer := { s.irq.transfer with pending := false } }) := by
  simp [startTransfer, h]

theorem stopTransfer_eq (s : State) :
    stopTransfer s = s.setTransfer { s.transfer with active := false, busy := false, ready := false } := rfl

theorem completeTransfer_eq (s : State) :
    completeTransfer s = driveLine ((s.setTransfer { s.transfer with
      active := false, busy := false, ready := false, completed := true }).setIrq
      { s.irq with transfer := { s.irq.transfer with pending := true } }) := rfl

/-- With two bytes or fewer left, the word moved completes the transfer at length 0. -/
theorem consume_last {s : State} (h : s.transfer.length.toNat ≤ 2) :
    consume s = completeTransfer (s.setTransfer { s.transfer with length := 0 }) := by
  unfold consume
  rw [if_pos (by omega)]

/-- With more than two bytes left, the length falls by two. -/
theorem consume_more {s : State} (h : 2 < s.transfer.length.toNat) :
    consume s = s.setTransfer { s.transfer with length := s.transfer.length - 2 } := by
  unfold consume
  rw [if_neg (by omega)]
  have e : BitVec.ofInt 12 ((s.transfer.length.toNat : Int) - 2) = s.transfer.length - 2 := by
    apply BitVec.eq_of_toNat_eq
    have hl := s.transfer.length.isLt
    have h2 : (2 : BitVec 12).toNat = 2 := rfl
    rw [BitVec.toNat_sub_of_le (by rw [BitVec.le_def, h2]; exact Nat.le_of_lt h), BitVec.toNat_ofInt, h2]
    omega
  rw [e]

theorem hostRead_of_not_ready {s : State} (h : s.transfer.ready = false) : hostRead s = (0xFFFF, s) := by
  simp [hostRead, h]

theorem hostRead_of_ready {s : State} (h : s.transfer.ready = true) :
    hostRead s =
      (transferWord s, consume (s.setTransfer { s.transfer with source := advanceSource s.transfer.source })) := by
  simp [hostRead, h]

theorem dmaWord_of_idle {s : State} (h : (s.transfer.active && isDmaDestination s.transfer.destination) = false) :
    dmaWord s = s := by
  simp [dmaWord, h]

/-- The port writes of a DMA word change nothing but the recorded events. -/
theorem portWrite_eq (d : BitVec 3) (a : Addr) (w : Word) (s : State) :
    ∃ es : List Event, portWrite d a w s = { s with events := s.events ++ es } ∧
      es = if d = 7 then [.wramWrite a w] else if d = 5 then [.prgWrite a w]
        else [.pcmWrite8 a (highByte w), .pcmWrite8 (a + 1) (lowByte w)] := by
  refine ⟨_, ?_, rfl⟩
  unfold portWrite
  split
  · rfl
  · split
    · rfl
    · simp [State.emit]

/-! ### The disc image -/

/-- A read that is not short returns the bytes asked for and changes nothing but the recorded events. -/
theorem imageRead_some {track : Nat} {off : Int} {len : Nat} {s t : State} {bs : List Byte}
    (h : imageRead track off len s = some (bs, t)) :
    bs = imageBytes s.disc track off len ∧ bs.length = len ∧ t = s.emit (.imageRead track off len) := by
  unfold imageRead at h
  dsimp only at h
  split at h
  · rename_i hl
    simp only [Option.some.injEq, Prod.mk.injEq] at h
    obtain ⟨rfl, rfl⟩ := h
    exact ⟨rfl, hl, rfl⟩
  · cases h

/-- An event that reads the image or records a mismatch: all that the payload path emits. -/
def isDiscEvent : Event → Bool
  | .imageRead _ _ _ | .diag _ _ => true
  | .wramWrite _ _ | .prgWrite _ _ | .pcmWrite8 _ _ | .irqRaise | .irqLower => false

theorem checkImage_some {kind : DiagKind} {track : Nat} {off : Int} {bs : List Byte} {lba : Int} {s t : State}
    (h : checkImage kind track off bs lba s = some t) :
    ∃ es : List Event, t = { s with events := s.events ++ es } ∧ ∀ e ∈ es, isDiscEvent e = true := by
  unfold checkImage at h
  split at h
  · cases h
  · rename_i bs' s1 h1
    obtain ⟨-, -, rfl⟩ := imageRead_some h1
    simp only [Option.some.injEq] at h
    split at h
    · subst h; exact ⟨_, rfl, by simp [isDiscEvent]⟩
    · subst h
      exact ⟨[.imageRead track off bs.length, .diag kind lba], by simp [State.emit], by simp [isDiscEvent]⟩

/-- A payload that is read has 2048 bytes, and reading it changes nothing but the recorded events. -/
theorem readPayload_some {lba : Int} {track : Nat} {s t : State} {bs : List Byte}
    (h : readPayload lba track s = some (bs, t)) :
    bs.length = payloadSize ∧
      ∃ es : List Event, t = { s with events := s.events ++ es } ∧ ∀ e ∈ es, isDiscEvent e = true := by
  unfold readPayload at h
  split at h
  · cases h
  · split at h
    · obtain ⟨-, hl, rfl⟩ := imageRead_some h
      exact ⟨hl, [_], rfl, by simp [isDiscEvent]⟩
    · unfold readBinCue at h
      dsimp only at h
      split at h
      · cases h
      · rename_i s1 h1
        split at h
        · cases h
        · rename_i s2 h2
          obtain ⟨e1, rfl, he1⟩ := checkImage_some h1
          obtain ⟨e2, rfl, he2⟩ := checkImage_some h2
          obtain ⟨-, hl, rfl⟩ := imageRead_some h
          refine ⟨hl, _, by simp only [State.emit, List.append_assoc]; rfl, ?_⟩
          intro e he
          rcases List.mem_append.1 he with he | he
          · exact he1 e he
          · rcases List.mem_append.1 he with he | he
            · exact he2 e he
            · rw [List.mem_singleton.1 he]; rfl

/-! ### The ring -/

@[simp] theorem writeRing_eq (s : State) (a : Nat) (bs : List Byte) :
    s.writeRing a bs = s.setRing (Memory.writeBytes a bs s.ring) := rfl

/-- The ring after a system reset reads as its free draw (R192). -/
theorem Memory.read_ofDraw (f : Nat → Byte) {a : Nat} (h : a < ringSize) : Memory.read (Memory.ofDraw f) a = f a := by
  unfold Memory.ofDraw
  have hl : ((List.range ringSize).map f).length = ringSize := by rw [List.length_map, List.length_range]
  rw [Memory.read_cells, if_pos ⟨Nat.zero_le _, by rw [hl]; omega⟩, List.getD_eq_getElem?_getD, Nat.sub_zero,
    List.getElem?_map, List.getElem?_range h]
  rfl

/-! ### What a word moved can do -/

/-- A CDC_HOST read changes nothing, or moves a word, or moves the last word and completes the transfer. -/
theorem hostRead_cases (s : State) :
    (hostRead s).2 = s ∨
    (s.transfer.ready = true ∧ (hostRead s).2 = s.setTransfer { s.transfer with
      source := advanceSource s.transfer.source, length := s.transfer.length - 2 }) ∨
    (s.transfer.ready = true ∧ (hostRead s).2 = completeTransfer (s.setTransfer { s.transfer with
      source := advanceSource s.transfer.source, length := 0 })) := by
  by_cases h : s.transfer.ready = true
  · rw [hostRead_of_ready h]
    by_cases hl : s.transfer.length.toNat ≤ 2
    · exact .inr (.inr ⟨h, consume_last (by simpa using hl)⟩)
    · exact .inr (.inl ⟨h, consume_more (by simpa using hl)⟩)
  · rw [hostRead_of_not_ready (by simpa using h)]; exact .inl rfl

/-- A `dma()` call changes nothing, or writes a word to an external memory and moves on, or also completes. -/
theorem dmaWord_cases (s : State) :
    dmaWord s = s ∨
    (s.transfer.active = true ∧ ∃ es : List Event,
      (∀ e ∈ es, (∃ a v, e = .wramWrite a v) ∨ (∃ a v, e = .prgWrite a v) ∨ ∃ a v, e = .pcmWrite8 a v) ∧
      (dmaWord s = { s with
          events := s.events ++ es,
          transfer := { s.transfer with
            source := advanceSource s.transfer.source,
            address := s.transfer.address + addressAdvance s.transfer.destination,
            length := s.transfer.length - 2 } } ∨
        dmaWord s = completeTransfer { s with
          events := s.events ++ es,
          transfer := { s.transfer with
            source := advanceSource s.transfer.source,
            address := s.transfer.address + addressAdvance s.transfer.destination, length := 0 } })) := by
  by_cases h : (s.transfer.active && isDmaDestination s.transfer.destination) = true
  · obtain ⟨es, he, hes⟩ := portWrite_eq s.transfer.destination s.transfer.address (transferWord s) s
    refine .inr ⟨by simp only [Bool.and_eq_true] at h; exact h.1, es, ?_, ?_⟩
    · rw [hes]; split
      · simp
      · split <;> simp
    · simp only [dmaWord, h, if_true, he, publish_eq]
      by_cases hl : s.transfer.length.toNat ≤ 2
      · exact .inr (consume_last (by simpa using hl))
      · exact .inl (consume_more (by simpa using hl))
  · exact .inl (dmaWord_of_idle (by simpa using h))

/-- DTRG's `start()` changes nothing, or starts the transfer and polls. -/
theorem startTransfer_cases (s : State) :
    startTransfer s = s ∨ startTransfer s = driveLine ((s.setTransfer { s.transfer with
      active := true, busy := true, ready := isHostDestination s.transfer.destination, completed := false }).setIrq
      { s.irq with transfer := { s.irq.transfer with pending := false } }) := by
  by_cases h : s.transfer.enable = true
  · exact .inr (startTransfer_of_enabled h)
  · exact .inl (startTransfer_of_disabled (by simpa using h))

/-! ### The image reads of a payload -/

theorem imageBytes_of_track {disc : List ImageTrack} {track : Nat} {tr : ImageTrack} (hd : disc[track]? = some tr)
    (offset len : Nat) : imageBytes disc track offset len = (tr.image.drop offset).take len := by
  simp only [imageBytes, hd]
  rw [if_neg (by omega)]
  rfl

/-- An image that holds the bytes asked for is read. -/
theorem imageRead_of_track {s : State} {track : Nat} {tr : ImageTrack} (hd : s.disc[track]? = some tr) {offset len : Nat}
    (h : offset + len ≤ tr.image.length) :
    imageRead track offset len s = some ((tr.image.drop offset).take len, s.emit (.imageRead track offset len)) := by
  unfold imageRead
  simp only [imageBytes_of_track hd]
  rw [if_pos]
  simp only [List.length_take, List.length_drop]
  omega

/-- An image that ends too early is a short read. -/
theorem imageRead_of_short {s : State} {track : Nat} {tr : ImageTrack} (hd : s.disc[track]? = some tr) {offset len : Nat}
    (h : tr.image.length < offset + len) (hl : 0 < len) : imageRead track offset len s = none := by
  unfold imageRead
  simp only [imageBytes_of_track hd]
  rw [if_neg]
  simp only [List.length_take, List.length_drop]
  omega

/-- A comparison against the image records the read, then a diagnostic where the bytes differ. -/
theorem checkImage_of_track {s : State} {track : Nat} {tr : ImageTrack} (hd : s.disc[track]? = some tr) (kind : DiagKind)
    {offset : Nat} {expected : List Byte} (h : offset + expected.length ≤ tr.image.length) (lba : Int) :
    checkImage kind track offset expected lba s = some { s with
      events := s.events ++ [.imageRead track offset expected.length] ++
        (if (tr.image.drop offset).take expected.length = expected then [] else [.diag kind lba]) } := by
  unfold checkImage
  rw [imageRead_of_track hd h]
  dsimp only
  split <;> simp [State.emit]

/-! ### The decode tick -/

theorem execDecode_of_disabled {s : State} (h : s.decoder.enable = false) (lba : Int) (kind : TrackKind) (track : Nat) :
    execDecode lba kind track s = finish s := by
  simp [execDecode, h]

theorem execDecode_inside {s : State} (h : s.decoder.enable = true) {lba : Int} (h1 : -150 ≤ lba) (h2 : lba ≤ 449849)
    (kind : TrackKind) (track : Nat) :
    execDecode lba kind track s = commitSector lba track (latchHeader (lba + 150).toNat kind s) := by
  unfold execDecode
  rw [if_pos h]
  exact if_neg (by simp only [pregapFrames, timecodeFrames]; omega)

theorem execDecode_outside {s : State} (h : s.decoder.enable = true) {lba : Int} (h1 : lba < -150 ∨ 449849 < lba)
    (kind : TrackKind) (track : Nat) : execDecode lba kind track s = .refused .timecodeOutOfRange := by
  unfold execDecode
  rw [if_pos h]
  exact if_pos (by simp only [pregapFrames, timecodeFrames]; omega)

/-- Steps 2 to 4 of a tick, as one update. -/
theorem latchHeader_eq (n : Nat) (kind : TrackKind) (s : State) :
    latchHeader n kind s = driveLine { s with
      header := headerFor n kind, decoder := { s.decoder with valid := true },
      irq := { s.irq with decoder := { s.irq.decoder with pending := true } } } := rfl

/-- Step 6 of a tick, as one update. -/
theorem commitHeader_eq (s : State) :
    commitHeader s = { s with
      transfer := { s.transfer with
        pointer := advanceSector s.transfer.pointer, target := advanceSector s.transfer.target },
      ring := Memory.writeBytes ((advanceSector s.transfer.pointer).toNat % ringSize) (headerBytes s.header) s.ring } := by
  unfold commitHeader State.writeRing State.setRing State.setTransfer headerAddress
  dsimp only

/-- What steps 5 to 8 of a tick that is not refused can do: nothing where no write is requested; else the counters
advance, the ring is written, and the reader's events are recorded. -/
theorem commitSector_next {lba : Int} {track : Nat} {s t : State} (h : commitSector lba track s = .next t) :
    (s.control.writeRequest = false ∧ t = s.respond .none) ∨
    (s.control.writeRequest = true ∧ ∃ (m : Memory) (es : List Event), (Memory.wf s.ring → Memory.wf m) ∧
      (∀ e ∈ es, isDiscEvent e = true) ∧ (es ≠ [] → 0 ≤ lba ∧ s.header.mode = 0x01) ∧
      t = { s with
        transfer := { s.transfer with
          pointer := advanceSector s.transfer.pointer, target := advanceSector s.transfer.target },
        ring := m, events := s.events ++ es, response := .none }) := by
  unfold commitSector at h
  split at h
  · rename_i hw
    refine .inr ⟨hw, ?_⟩
    dsimp only at h
    have hwf : Memory.wf s.ring → Memory.wf _ := fun h =>
      Memory.wf_writeBytes h ((advanceSector s.transfer.pointer).toNat % ringSize) (headerBytes s.header)
    rw [commitHeader_eq] at h
    generalize Memory.writeBytes _ _ s.ring = m at h hwf
    split at h
    · rw [finish_next] at h; subst h
      exact ⟨m, [], hwf, by simp, by simp, by simp [State.respond]⟩
    · rename_i hl
      split at h
      · rename_i hh
        unfold copyPayload at h
        split at h
        · cases h
        · obtain ⟨-, es, rfl, hes⟩ := readPayload_some (by assumption)
          rw [finish_next] at h; subst h
          exact ⟨_, es, fun hm => Memory.wf_writeBytes (hwf hm) _ _, hes, fun _ => ⟨by omega, hh⟩,
            by simp only [writeRing_eq, State.setRing, State.respond]; rfl⟩
      · rw [finish_next] at h; subst h
        exact ⟨m, [], hwf, by simp, by simp, by simp [State.respond]⟩
  · rename_i hw
    rw [finish_next] at h
    exact .inl ⟨by simpa using hw, h⟩

/-- A DECODE that is not refused found the decoder disabled, or its timecode inside the domain. -/
theorem execDecode_next {lba : Int} {kind : TrackKind} {track : Nat} {s t : State}
    (h : execDecode lba kind track s = .next t) :
    (s.decoder.enable = false ∧ t = s.respond .none) ∨
    (s.decoder.enable = true ∧ -150 ≤ lba ∧ lba ≤ 449849 ∧
      commitSector lba track (latchHeader (lba + 150).toNat kind s) = .next t) := by
  unfold execDecode at h
  split at h
  · rename_i he
    dsimp only at h
    split at h
    · cases h
    · rename_i hn
      simp only [pregapFrames, timecodeFrames] at hn
      exact .inr ⟨he, by omega, by omega, h⟩
  · rename_i he
    rw [finish_next] at h
    exact .inl ⟨by simpa using he, h⟩

/-! ### A step -/

/-- A step that answers a next state did nothing, or performed one transaction. -/
theorem step_next {s t : State} (h : step s = .next t) :
    t = s ∨ ∃ (i : Instr) (rest : List Byte), exec i (s.setInput rest) = .next t := by
  unfold step at h
  split at h
  · cases h; exact .inl rfl
  · rename_i e _
    cases e <;> cases h
  · exact .inr ⟨_, _, h⟩

end Sys2Proof.Machine
end

