-- ==== Sys2Proof/Laws/PerInstr.lean ====
section
/-! SUPPORT. What holds of every transaction as syntax, one lemma per constructor. -/

namespace Sys2Proof.Laws.SelectorRow

/-- How many operand bytes each selector calls for (R73 to R76). -/
def operandCount (sel : Byte) : Nat :=
  let n := sel.toNat
  if 0x10 ≤ n ∧ n ≤ 0x1F then 1
  else if n = 0x21 ∨ n = 0x22 then 1
  else if n = 0x25 ∨ n = 0x28 then 2
  else if n = 0x40 then 6
  else if n = 0x41 then 4
  else 0

/-- The transaction's first byte is a selector no row of R79 reserves, and the length of its encoding follows from that
byte alone (R82). -/
def Statement (i : Instr) : Prop :=
  ∃ sel ops, encode i = sel :: ops ∧ isReserved sel = false ∧ ops.length = operandCount sel

theorem rdComin : Statement .rdComin := ⟨_, _, rfl, rfl, rfl⟩
theorem rdIfstat : Statement .rdIfstat := ⟨_, _, rfl, rfl, rfl⟩
theorem rdDbcl : Statement .rdDbcl := ⟨_, _, rfl, rfl, rfl⟩
theorem rdDbch : Statement .rdDbch := ⟨_, _, rfl, rfl, rfl⟩
theorem rdHead0 : Statement .rdHead0 := ⟨_, _, rfl, rfl, rfl⟩
theorem rdHead1 : Statement .rdHead1 := ⟨_, _, rfl, rfl, rfl⟩
theorem rdHead2 : Statement .rdHead2 := ⟨_, _, rfl, rfl, rfl⟩
theorem rdHead3 : Statement .rdHead3 := ⟨_, _, rfl, rfl, rfl⟩
theorem rdPtl : Statement .rdPtl := ⟨_, _, rfl, rfl, rfl⟩
theorem rdPth : Statement .rdPth := ⟨_, _, rfl, rfl, rfl⟩
theorem rdWal : Statement .rdWal := ⟨_, _, rfl, rfl, rfl⟩
theorem rdWah : Statement .rdWah := ⟨_, _, rfl, rfl, rfl⟩
theorem rdStat0 : Statement .rdStat0 := ⟨_, _, rfl, rfl, rfl⟩
theorem rdStat1 : Statement .rdStat1 := ⟨_, _, rfl, rfl, rfl⟩
theorem rdStat2 : Statement .rdStat2 := ⟨_, _, rfl, rfl, rfl⟩
theorem rdStat3 : Statement .rdStat3 := ⟨_, _, rfl, rfl, rfl⟩
theorem wrSbout (d : Byte) : Statement (.wrSbout d) := ⟨_, _, rfl, rfl, rfl⟩
theorem wrIfctrl (d : Byte) : Statement (.wrIfctrl d) := ⟨_, _, rfl, rfl, rfl⟩
theorem wrDbcl (d : Byte) : Statement (.wrDbcl d) := ⟨_, _, rfl, rfl, rfl⟩
theorem wrDbch (d : Byte) : Statement (.wrDbch d) := ⟨_, _, rfl, rfl, rfl⟩
theorem wrDacl (d : Byte) : Statement (.wrDacl d) := ⟨_, _, rfl, rfl, rfl⟩
theorem wrDach (d : Byte) : Statement (.wrDach d) := ⟨_, _, rfl, rfl, rfl⟩
theorem wrDtrg (d : Byte) : Statement (.wrDtrg d) := ⟨_, _, rfl, rfl, rfl⟩
theorem wrDtack (d : Byte) : Statement (.wrDtack d) := ⟨_, _, rfl, rfl, rfl⟩
theorem wrWal (d : Byte) : Statement (.wrWal d) := ⟨_, _, rfl, rfl, rfl⟩
theorem wrWah (d : Byte) : Statement (.wrWah d) := ⟨_, _, rfl, rfl, rfl⟩
theorem wrCtrl0 (d : Byte) : Statement (.wrCtrl0 d) := ⟨_, _, rfl, rfl, rfl⟩
theorem wrCtrl1 (d : Byte) : Statement (.wrCtrl1 d) := ⟨_, _, rfl, rfl, rfl⟩
theorem wrPtl (d : Byte) : Statement (.wrPtl d) := ⟨_, _, rfl, rfl, rfl⟩
theorem wrPth (d : Byte) : Statement (.wrPth d) := ⟨_, _, rfl, rfl, rfl⟩
theorem wrCtrl2 (d : Byte) : Statement (.wrCtrl2 d) := ⟨_, _, rfl, rfl, rfl⟩
theorem wrReset (d : Byte) : Statement (.wrReset d) := ⟨_, _, rfl, rfl, rfl⟩
theorem moderd : Statement .moderd := ⟨_, _, rfl, rfl, rfl⟩
theorem modewl (d : Byte) : Statement (.modewl d) := ⟨_, _, rfl, rfl, rfl⟩
theorem modewh (d : Byte) : Statement (.modewh d) := ⟨_, _, rfl, rfl, rfl⟩
theorem moderdh : Statement .moderdh := ⟨_, _, rfl, rfl, rfl⟩
theorem dmaard : Statement .dmaard := ⟨_, _, rfl, rfl, rfl⟩
theorem dmaawr (v : Word) : Statement (.dmaawr v) := ⟨_, _, rfl, rfl, rfl⟩
theorem hostrd : Statement .hostrd := ⟨_, _, rfl, rfl, rfl⟩
theorem swrd : Statement .swrd := ⟨_, _, rfl, rfl, rfl⟩
theorem swwr (v : Word) : Statement (.swwr v) := ⟨_, _, rfl, rfl, rfl⟩
theorem decodeSector (lba : Int) (kind : TrackKind) (track : Nat) : Statement (.decodeSector lba kind track) := ⟨_, _, rfl, rfl, rfl⟩
theorem stepTick (cycles : Nat) : Statement (.stepTick cycles) := ⟨_, _, rfl, rfl, rfl⟩
theorem dma : Statement .dma := ⟨_, _, rfl, rfl, rfl⟩
theorem poll : Statement .poll := ⟨_, _, rfl, rfl, rfl⟩
theorem sysReset : Statement .sysReset := ⟨_, _, rfl, rfl, rfl⟩
theorem construct : Statement .construct := ⟨_, _, rfl, rfl, rfl⟩

end Sys2Proof.Laws.SelectorRow
end

