-- ==== Sys2Proof/Tests/Slice0.lean ====
section
/-! SUPPORT. Small tests of one transaction each, with results taken from the spec's own vectors (95_test_vectors.md) and
tables, and for every obligation with hypotheses a witness that meets them. -/

namespace Sys2Proof.Tests

open Sys2Proof Sys2Proof.Machine

/-! ### Helpers -/

/-- The next state, if there is one. -/
def after : Result → Option State
  | .next s => some s
  | .fault _ => none
  | .refused _ => none

/-- How the transaction was refused, if it was. -/
def refusal : Result → Option Refusal
  | .next _ => none
  | .fault _ => none
  | .refused r => some r

/-- The value a transaction answers. -/
def answerOf (r : Result) : Option Response := (after r).map State.response

/-- The latch after a transaction. -/
def latchOf (r : Result) : Option Slot := (after r).map fun s => s.regfile.address

/-- The mode register after a transaction. -/
def modeOf (r : Result) : Option Word := (after r).map modeRegister

/-- The power-on state with the latch at `k`. -/
def atLatch (k : Slot) : State := State.reset.setLatch k

/-- A transfer with the given destination, counters and flags, enabled; the latch is 7, as DTRG leaves it. -/
def moving (d : BitVec 3) (address : Addr) (source : Word) (length : BitVec 12) (active ready : Bool) : State :=
  (atLatch 7).setTransfer { State.reset.transfer with
    destination := d, address := address, source := source, length := length, enable := true, active := active,
    busy := active, ready := ready }

/-- A ring whose bytes at 0x0930 to 0x0933 are the header 00 02 00 01 (vector TR-1). -/
def headerRing : Memory := [(0x0931, 0x02), (0x0933, 0x01)]

/-- A decoder set up by a CTRL0 byte, with DECIEN set (vectors DEC-11 to DEC-15). -/
def decoding (enable write : Bool) (pointer : Word) : State :=
  (((State.reset.setDecoder { State.reset.decoder with enable := enable }).setControl
    { State.reset.control with writeRequest := write }).setTransfer
    { State.reset.transfer with pointer := pointer }).setIrq
    { State.reset.irq with decoder := { enable := true, pending := false } }

/-- Both sources enabled and pending, the line high (vectors IRQ-5 and IRQ-6). -/
def bothPending (k : Slot) : State :=
  (atLatch k).setIrq
    { decoder := { enable := true, pending := true }, transfer := { enable := true, pending := true },
      command := idleSource, line := true }

/-- Header mode off: sub-header mode (vector RD-9). -/
def subheader (k : Slot) : State := (atLatch k).setControl { State.reset.control with head := true }

/-- The disc of a single track. -/
def withTrack (t : ImageTrack) (s : State) : State := { s with disc := [t] }

/-- 2048 bytes, byte `i` being `i & 0xFF`, as the vectors' track `T0` has them. -/
def rampBytes : List Byte := (List.range 2048).map (BitVec.ofNat 8)

/-- The first sector of `T0`. -/
def isoTrack : ImageTrack := { layout := .iso, sectorSize := 2048, image := rampBytes }

/-- One BIN/CUE sector whose sync pattern is right and whose timecode is not that of lba 0. -/
def binCueTrack : ImageTrack :=
  { layout := .binCue, sectorSize := 2352,
    image := [0x00, 0xFF, 0xFF, 0xFF, 0xFF, 0xFF, 0xFF, 0xFF, 0xFF, 0xFF, 0xFF, 0x00, 0x00, 0x02, 0x01, 0x01] ++ rampBytes }

/-- The header bytes of a result. -/
def headerOf (r : Result) : Option (List Byte) := (after r).map fun s => headerBytes s.header

/-! ### Well-formedness: one ill-formed term for each check, beside the boundary it passes -/

theorem test_wf_lba : WellFormed (.decodeSector (2 ^ 31) .data 0) = false ∧
    WellFormed (.decodeSector (-(2 ^ 31) - 1) .data 0) = false ∧
    WellFormed (.decodeSector (-(2 ^ 31)) .data 0) = true := by decide

theorem test_wf_track : WellFormed (.decodeSector 0 .data 256) = false ∧
    WellFormed (.decodeSector 0 .data 255) = true := by decide

theorem test_wf_cycles : WellFormed (.stepTick (2 ^ 32)) = false ∧ WellFormed (.stepTick (2 ^ 32 - 1)) = true := by decide

/-! ### Decoding, each word written out from the tables of R74, R75 and R76 -/

/-- R74: class 000, `dir` 0, `slot` in bits 3:0. -/
theorem test_decode_reads :
    decode [0b00000000] = .ok (.rdComin, []) ∧ decode [0b00000001] = .ok (.rdIfstat, []) ∧
    decode [0b00000010] = .ok (.rdDbcl, []) ∧ decode [0b00000011] = .ok (.rdDbch, []) ∧
    decode [0b00000100] = .ok (.rdHead0, []) ∧ decode [0b00000101] = .ok (.rdHead1, []) ∧
    decode [0b00000110] = .ok (.rdHead2, []) ∧ decode [0b00000111] = .ok (.rdHead3, []) := by decide

/-- R74: the slots from 8 on. -/
theorem test_decode_reads_high :
    decode [0b00001000] = .ok (.rdPtl, []) ∧ decode [0b00001001] = .ok (.rdPth, []) ∧
    decode [0b00001010] = .ok (.rdWal, []) ∧ decode [0b00001011] = .ok (.rdWah, []) ∧
    decode [0b00001100] = .ok (.rdStat0, []) ∧ decode [0b00001101] = .ok (.rdStat1, []) ∧
    decode [0b00001110] = .ok (.rdStat2, []) ∧ decode [0b00001111] = .ok (.rdStat3, []) := by decide

/-- R74: class 000, `dir` 1, `slot` in bits 3:0, then the byte written. -/
theorem test_decode_writes :
    decode [0b00010000, 0xA5] = .ok (.wrSbout 0xA5, []) ∧ decode [0b00010001, 0xA5] = .ok (.wrIfctrl 0xA5, []) ∧
    decode [0b00010010, 0xA5] = .ok (.wrDbcl 0xA5, []) ∧ decode [0b00010011, 0xA5] = .ok (.wrDbch 0xA5, []) ∧
    decode [0b00010100, 0xA5] = .ok (.wrDacl 0xA5, []) ∧ decode [0b00010101, 0xA5] = .ok (.wrDach 0xA5, []) ∧
    decode [0b00010110, 0xA5] = .ok (.wrDtrg 0xA5, []) ∧ decode [0b00010111, 0xA5] = .ok (.wrDtack 0xA5, []) := by decide

/-- R74: the slots from 8 on. -/
theorem test_decode_writes_high :
    decode [0b00011000, 0xA5] = .ok (.wrWal 0xA5, []) ∧ decode [0b00011001, 0xA5] = .ok (.wrWah 0xA5, []) ∧
    decode [0b00011010, 0xA5] = .ok (.wrCtrl0 0xA5, []) ∧ decode [0b00011011, 0xA5] = .ok (.wrCtrl1 0xA5, []) ∧
    decode [0b00011100, 0xA5] = .ok (.wrPtl 0xA5, []) ∧ decode [0b00011101, 0xA5] = .ok (.wrPth 0xA5, []) ∧
    decode [0b00011110, 0xA5] = .ok (.wrCtrl2 0xA5, []) ∧ decode [0b00011111, 0xA5] = .ok (.wrReset 0xA5, []) := by decide

/-- R75: class 001, `op` in bits 4:0. -/
theorem test_decode_ports :
    decode [0b00100000] = .ok (.moderd, []) ∧ decode [0b00100001, 0x1F] = .ok (.modewl 0x1F, []) ∧
    decode [0b00100010, 0xFB] = .ok (.modewh 0xFB, []) ∧ decode [0b00100011] = .ok (.moderdh, []) ∧
    decode [0b00100100] = .ok (.dmaard, []) ∧ decode [0b00100101, 0x01, 0x00] = .ok (.dmaawr 0x0100, []) ∧
    decode [0b00100110] = .ok (.hostrd, []) ∧ decode [0b00100111] = .ok (.swrd, []) ∧
    decode [0b00101000, 0xBE, 0xEF] = .ok (.swwr 0xBEEF, []) := by decide

/-- R76: class 010, `op` in bits 4:0; the lba of program P4 step 6 and the cycles of its step 11. -/
theorem test_decode_entries :
    decode [0b01000000, 0xFF, 0xFF, 0xFF, 0xFF, 1, 0] = .ok (.decodeSector (-1) .data 0, []) ∧
    decode [0b01000000, 0x00, 0x00, 0x10, 0xFE, 0, 2] = .ok (.decodeSector 4350 .audio 2, []) ∧
    decode [0b01000001, 0x00, 0x00, 0x03, 0xE8] = .ok (.stepTick 1000, []) ∧
    decode [0b01000010] = .ok (.dma, []) ∧ decode [0b01000011] = .ok (.poll, []) ∧
    decode [0b01000100] = .ok (.sysReset, []) ∧ decode [0b01000101] = .ok (.construct, []) := by decide

/-- Vectors ENC-8, ENC-9, ENC-12 to ENC-14 (R79). -/
theorem test_decode_reserved :
    decode [0x29] = .error (.reserved 0x29) ∧ decode [0x3F] = .error (.reserved 0x3F) ∧
    decode [0x46] = .error (.reserved 0x46) ∧ decode [0x5F] = .error (.reserved 0x5F) ∧
    decode [0x60] = .error (.reserved 0x60) ∧ decode [0x80] = .error (.reserved 0x80) ∧
    decode [0xFF] = .error (.reserved 0xFF) := by decide

/-- Decoding leaves the bytes of the transactions that follow (program P1, steps 2 to 4). -/
theorem test_decode_rest : decode [0x21, 0x0C, 0x1C, 0xD0, 0x1D, 0xF6] = .ok (.modewl 0x0C, [0x1C, 0xD0, 0x1D, 0xF6]) := by
  decide

/-- The table numbers the selector as the low byte; an operand word it gives no bits is 0. -/
theorem test_table_words :
    decodeTableWord 8 0x0F = some .rdStat3 ∧ decodeTableWord 8 0x25 = some (.dmaawr 0) ∧
    decodeTableWord 8 0x40 = some (.decodeSector 0 .audio 0) ∧ decodeTableWord 8 0x29 = none := by decide

/-- The encoder writes the table's selectors and the operand bytes (programs P2 step 6, P4 step 6). -/
theorem test_encode : encode (.dmaawr 0x0100) = [0x25, 0x01, 0x00] ∧
    encode (.decodeSector (-1) .data 0) = [0x40, 0xFF, 0xFF, 0xFF, 0xFF, 1, 0] ∧
    encode (.stepTick 1000) = [0x41, 0x00, 0x00, 0x03, 0xE8] := by decide

/-- A placed word is what the very next step performs: MODERD, and STAT3 at its own slot. -/
theorem test_fetch_word : answerOf (step (State.reset.withFetchWord 8 0x20)) = some (.u16 0x0000) ∧
    answerOf (step (State.reset.withFetchWord 8 0x0F)) = some (.u8 0x80) ∧
    (after (step (State.reset.withFetchWord 8 0x0F))).map State.input = some [] := by decide

/-- The three ways a step stops, and the step with nothing issued. -/
theorem test_step_stops :
    refusal (step { State.reset with input := [0x29] }) = some .unknownTransaction ∧
    refusal (step { State.reset with input := [0x40, 0, 0, 0, 0, 2, 0] }) = some .unknownTrackKind ∧
    after (step { State.reset with input := [0x25, 0x01] }) = none ∧
    after (step State.reset) = some State.reset := by decide

/-! ### Register-window reads (vectors RD-1 to RD-16) -/

theorem test_rd_1 : answerOf (exec .rdComin (atLatch 0)) = some (.u8 0xFF) ∧
    latchOf (exec .rdComin (atLatch 0)) = some 0 := by decide

theorem test_rd_2 : answerOf (exec .rdIfstat (atLatch 1)) = some (.u8 0x7F) ∧
    latchOf (exec .rdIfstat (atLatch 1)) = some 2 := by decide

/-- RD-3: transfer active and busy. -/
theorem test_rd_3 : answerOf (exec .rdIfstat ((moving 2 0 0 0 true true).setLatch 1)) = some (.u8 0x75) := by decide

/-- RD-6: the halves of a length of 0xFFF. -/
theorem test_rd_6 :
    answerOf (exec .rdDbcl ((moving 0 0 0 0xFFF false false).setLatch 2)) = some (.u8 0xFF) ∧
    answerOf (exec .rdDbch ((moving 0 0 0 0xFFF false false).setLatch 3)) = some (.u8 0x0F) := by decide

/-- RD-8: the header of lba 0. -/
theorem test_rd_8 :
    let s := State.reset.setHeader { minute := 0x00, second := 0x02, frame := 0x00, mode := 0x01 }
    answerOf (exec .rdHead0 (s.setLatch 4)) = some (.u8 0x00) ∧ answerOf (exec .rdHead1 (s.setLatch 5)) = some (.u8 0x02) ∧
    answerOf (exec .rdHead2 (s.setLatch 6)) = some (.u8 0x00) ∧ answerOf (exec .rdHead3 (s.setLatch 7)) = some (.u8 0x01) := by
  decide

theorem test_rd_9 : refusal (exec .rdHead0 (subheader 4)) = some .unsupportedSubheaderRead := by decide

/-- RD-10 and RD-11: low byte first. -/
theorem test_rd_10_11 :
    let s := State.reset.setTransfer { State.reset.transfer with pointer := 0xBEEF, target := 0x1234 }
    answerOf (exec .rdPtl (s.setLatch 8)) = some (.u8 0xEF) ∧ answerOf (exec .rdPth (s.setLatch 9)) = some (.u8 0xBE) ∧
    answerOf (exec .rdWal (s.setLatch 10)) = some (.u8 0x34) ∧ answerOf (exec .rdWah (s.setLatch 11)) = some (.u8 0x12) := by
  decide

theorem test_rd_12 : answerOf (exec .rdStat0 (atLatch 12)) = some (.u8 0x80) ∧
    answerOf (exec .rdStat1 (atLatch 13)) = some (.u8 0x00) := by decide

theorem test_rd_13 :
    answerOf (exec .rdStat2 ((atLatch 14).setDecoder { State.reset.decoder with mode := true, form := true })) =
      some (.u8 0x0C) := by decide

theorem test_rd_15 : answerOf (exec .rdStat3 (atLatch 15)) = some (.u8 0x80) ∧
    latchOf (exec .rdStat3 (atLatch 15)) = some 0 := by decide

/-- RD-16: the value before the clear, the line lowered. -/
theorem test_rd_16 :
    let s := ((atLatch 15).setDecoder { State.reset.decoder with valid := true }).setIrq
      { State.reset.irq with decoder := { enable := true, pending := true }, line := true }
    answerOf (exec .rdStat3 s) = some (.u8 0x00) ∧
    (after (exec .rdStat3 s)).map (fun t => (t.decoder.valid, t.irq.decoder.pending, t.irq.line, t.events)) =
      some (false, false, false, [.irqLower]) := by decide

/-- ENC-15: a recorded STAT3 at latch 3. -/
theorem test_enc_15 : refusal (exec .rdStat3 (atLatch 3)) = some .unknownTransaction := by decide

/-! ### Register-window writes (vectors WR-1 to WR-16) -/

theorem test_wr_1 : after (exec (.wrSbout 0xAA) (atLatch 0)) = some (atLatch 0) := by decide

theorem test_wr_2 :
    (after (exec (.wrIfctrl 0x7F) (atLatch 1))).map (fun t => (t.status, t.control.commandBreak, t.irq)) =
      some ({ enable := true, wait := true, active := false, busy := false }, true,
        { decoder := { enable := true, pending := false }, transfer := { enable := true, pending := false },
          command := { enable := false, pending := false }, line := false }) ∧
    (after (exec (.wrIfctrl 0x7F) (atLatch 1))).map (fun t => (t.transfer.enable, t.transfer.wait)) = some (true, true) := by
  decide

/-- WR-4: disabling transfer output aborts the transfer and keeps the length. -/
theorem test_wr_4 :
    (after (exec (.wrIfctrl 0x40) ((moving 2 0 0 6 true true).setLatch 1))).map
      (fun t => (t.transfer.active, t.transfer.busy, t.transfer.ready, t.transfer.completed, t.transfer.length)) =
      some (false, false, false, false, 6) := by decide

theorem test_wr_5 :
    (after (exec (.wrDbcl 0x12) ((moving 0 0 0 0x345 false false).setLatch 2))).map (fun t => t.transfer.length) =
      some 0x312 := by decide

theorem test_wr_6 :
    (after (exec (.wrDbch 0xF4) ((moving 0 0 0 0x012 false false).setLatch 3))).map (fun t => t.transfer.length) =
      some 0x412 := by decide

/-- ENC-17: the two writes of `WRPAIR DACH, #0x0930`. -/
theorem test_wr_source :
    (after (exec (.wrDacl 0x30) ((moving 0 0 0x1234 0 false false).setLatch 4))).map (fun t => t.transfer.source) =
      some 0x1230 ∧
    (after (exec (.wrDach 0x09) ((moving 0 0 0x1230 0 false false).setLatch 5))).map (fun t => t.transfer.source) =
      some 0x0930 := by decide

theorem test_wr_8 : latchOf (exec (.wrDtrg 0) (atLatch 6)) = some 7 ∧
    (after (exec (.wrDtrg 0) (atLatch 6))).map (fun t => t.transfer) = some State.reset.transfer := by decide

theorem test_wr_9 : modeOf (exec (.wrDtrg 0) ((moving 3 0 0 0 false false).setLatch 6)) = some 0x4307 := by decide

/-- WR-10, for the transfer source alone. -/
theorem test_wr_10 :
    let s := ((moving 0 0 0 0x7FF false false).setIrq
      { State.reset.irq with transfer := { enable := true, pending := true }, line := true })
    (after (exec (.wrDtack 0) s)).map (fun t => (t.transfer.length, t.irq.transfer.pending, t.irq.line, t.regfile.address)) =
      some (0x0FF, false, false, 8) := by decide

theorem test_wr_11 :
    (after (exec (.wrWal 0x34) (atLatch 8))).map (fun t => t.transfer.target) = some 0x0034 ∧
    (after (exec (.wrWah 0x12) ((atLatch 9).setTransfer { State.reset.transfer with target := 0x0034 }))).map
      (fun t => t.transfer.target) = some 0x1234 := by decide

theorem test_wr_12 :
    (after (exec (.wrCtrl0 0x84) (atLatch 10))).map
      (fun t => (t.decoder.enable, t.control.writeRequest, t.decoder.mode, t.decoder.form)) =
      some (true, true, false, false) := by decide

/-- RD-14: AUTORQ forces the form to 0. -/
theorem test_wr_ctrl1 :
    (after (exec (.wrCtrl1 0x0C) ((atLatch 11).setControl { State.reset.control with autoCorrection := true }))).map
      (fun t => (t.decoder.mode, t.decoder.form, t.control.form)) = some (true, false, true) := by decide

/-- WR-14: the halves of 0xF6D0. -/
theorem test_wr_14 :
    (after (exec (.wrPtl 0xD0) (atLatch 12))).map (fun t => t.transfer.pointer) = some 0x00D0 ∧
    (after (exec (.wrPth 0xF6) ((atLatch 13).setTransfer { State.reset.transfer with pointer := 0x00D0 }))).map
      (fun t => t.transfer.pointer) = some 0xF6D0 := by decide

theorem test_wr_15 : after (exec (.wrCtrl2 0xFF) (atLatch 14)) = some (atLatch 15) := by decide

/-- WR-16 and S8: the sub-states go, the ring and the stopwatch stay, the line is lowered. -/
theorem test_wr_16 :
    let s := { bothPending 15 with ring := headerRing, stopwatch := 7 }
    after (exec (.wrReset 0) s) = some { State.reset with ring := headerRing, stopwatch := 7, events := [.irqLower] } := by
  decide

/-! ### The decoder (vectors DEC-1 to DEC-17) -/

theorem test_dec_1_to_5 :
    headerOf (exec (.decodeSector 0 .data 0) (decoding true false 0)) = some [0x00, 0x02, 0x00, 0x01] ∧
    headerOf (exec (.decodeSector 16 .data 0) (decoding true false 0)) = some [0x00, 0x02, 0x16, 0x01] ∧
    headerOf (exec (.decodeSector (-1) .data 0) (decoding true false 0)) = some [0x00, 0x01, 0x74, 0x01] ∧
    headerOf (exec (.decodeSector (-150) .audio 0) (decoding true false 0)) = some [0x00, 0x00, 0x00, 0x00] := by decide

theorem test_dec_6_to_10 :
    refusal (exec (.decodeSector (-151) .data 0) (decoding true false 0)) = some .timecodeOutOfRange ∧
    headerOf (exec (.decodeSector 4350 .data 0) (decoding true false 0)) = some [0x01, 0x00, 0x00, 0x01] ∧
    headerOf (exec (.decodeSector 449849 .data 0) (decoding true false 0)) = some [0x99, 0x59, 0x74, 0x01] ∧
    refusal (exec (.decodeSector 449850 .data 0) (decoding true false 0)) = some .timecodeOutOfRange ∧
    after (exec (.decodeSector (-151) .data 0) (decoding false false 0)) = some (decoding false false 0) := by decide

/-- DEC-12: the line is raised, the counters and the ring stay. -/
theorem test_dec_12 :
    (after (exec (.decodeSector 0 .data 0) (decoding true false 0))).map
      (fun t => (t.decoder.valid, t.irq.decoder.pending, t.irq.line, t.events)) = some (true, true, true, [.irqRaise]) ∧
    (after (exec (.decodeSector 0 .data 0) (decoding true false 0))).map (fun t => (t.transfer.pointer, t.ring)) =
      some (0, []) := by decide

/-- DEC-14: a priming tick commits its header at 0x0930 and reads no image. -/
theorem test_dec_14 :
    (after (exec (.decodeSector (-1) .data 0) (decoding true true 0))).map
      (fun t => (t.transfer.pointer, t.transfer.target, t.ring, t.events)) =
      some (0x0930, 0x0930, [(0x0931, 0x01), (0x0932, 0x74), (0x0933, 0x01)], [.irqRaise]) := by decide

/-- DEC-17, its header part on a priming tick: `pointer` becomes 0x3FFE and the header wraps to 0x0000. -/
theorem test_dec_17 :
    (after (exec (.decodeSector (-1) .data 0) (decoding true true 0x36CE))).map
      (fun t => (t.transfer.pointer, t.ring)) = some (0x3FFE, [(0x0000, 0x74), (0x0001, 0x01), (0x3FFF, 0x01)]) := by decide

/-- DEC-13: the payload of an ISO track, by four of its bytes and the one image read. -/
theorem test_dec_13 :
    (after (exec (.decodeSector 0 .data 0) (withTrack isoTrack (decoding true true 0)))).map
      (fun t => ([0x0931, 0x0934, 0x0935, 0x1133, 0x1134].map t.ringByte, t.events)) =
      some ([0x02, 0x00, 0x01, 0xFF, 0x00], [.irqRaise, .imageRead 0 0 2048]) := by decide +kernel

/-- DEC-18: a BIN/CUE track with the expected sync pattern and a wrong header: one diagnostic, the payload copied. -/
theorem test_dec_18 :
    (after (exec (.decodeSector 0 .data 0) (withTrack binCueTrack (decoding true true 0)))).map
      (fun t => ([0x0931, 0x0934, 0x0935, 0x1133].map t.ringByte, t.events)) =
      some ([0x02, 0x00, 0x01, 0xFF], [.irqRaise, .imageRead 0 0 12, .imageRead 0 12 4, .diag .headerMismatch 0,
        .imageRead 0 16 2048]) := by decide +kernel

/-- R138: a data tick with no such track is a short read. -/
theorem test_dec_short : refusal (exec (.decodeSector 0 .data 0) (decoding true true 0)) = some .shortImageRead := by decide

/-! ### The transfer engine (vectors TR-1 to TR-13) -/

theorem test_tr_1 :
    let s := { moving 2 0 0x0930 4 true true with ring := headerRing }
    answerOf (exec .hostrd s) = some (.u16 0x0002) ∧
    (after (exec .hostrd s)).map (fun t => (t.transfer.source, t.transfer.length, t.transfer.ready)) =
      some (0x0932, 2, true) := by decide

/-- TR-1, the last word: completed, pending, `ready` gone. -/
theorem test_tr_1_last :
    let s := { moving 2 0 0x0932 2 true true with ring := headerRing }
    answerOf (exec .hostrd s) = some (.u16 0x0001) ∧ modeOf (exec .hostrd s) = some 0x8207 ∧
    (after (exec .hostrd s)).map (fun t => (t.transfer.length, t.irq.transfer.pending)) = some (0, true) := by decide

/-- TR-2 and TR-3: an odd length and a zero length complete with the word that reaches 0 or less. -/
theorem test_tr_2_3 :
    (after (exec .hostrd (moving 2 0 0 3 true true))).map (fun t => (t.transfer.length, t.transfer.completed)) =
      some (1, false) ∧
    (after (exec .hostrd (moving 2 0 0 1 true true))).map (fun t => (t.transfer.length, t.transfer.completed)) =
      some (0, true) ∧
    (after (exec .hostrd (moving 2 0 0 0 true true))).map (fun t => (t.transfer.length, t.transfer.completed)) =
      some (0, true) := by decide

/-- TR-5 and TR-6: the word wraps byte by byte. -/
theorem test_tr_5_6 :
    let ring : Memory := [(0x0000, 0x34), (0x3FFF, 0x12)]
    answerOf (exec .hostrd { moving 2 0 0x3FFF 4 true true with ring := ring }) = some (.u16 0x1234) ∧
    (after (exec .dma { moving 5 0 0xFFFF 4 true false with ring := ring })).map (fun t => (t.events, t.transfer.source)) =
      some ([.prgWrite 0 0x1234], 0x0001) := by decide

theorem test_tr_7_8 :
    (after (exec .dma { moving 7 0x00100 0 4 true false with ring := [(0, 0xAB), (1, 0xCD)] })).map
      (fun t => (t.events, t.transfer.address)) = some ([.wramWrite 0x00100 0xABCD], 0x00102) ∧
    (after (exec .dma (moving 5 0x7FFFE 0 4 true false))).map (fun t => (t.events, t.transfer.address)) =
      some ([.prgWrite 0x7FFFE 0x0000], 0x00000) := by decide

theorem test_tr_9 :
    (after (exec .dma { moving 4 0x7FFFC 0 4 true false with ring := [(0, 0x12), (1, 0x34)] })).map
      (fun t => (t.events, t.transfer.address)) =
      some ([.pcmWrite8 0x7FFFC 0x12, .pcmWrite8 0x7FFFD 0x34], 0x00000) := by decide

/-- TR-11 and TR-12: destinations `dma()` does not move. -/
theorem test_tr_11_12 :
    after (exec .dma (moving 6 0 0 4 true false)) = some (moving 6 0 0 4 true false) ∧
    after (exec .dma (moving 2 0 0 4 true true)) = some (moving 2 0 0 4 true true) ∧
    answerOf (exec .hostrd (moving 6 0 0 4 true false)) = some (.u16 0xFFFF) := by decide

/-! ### Bus ports and cadence (vectors PT-1 to PT-12) -/

theorem test_pt_1_2 : answerOf (exec .moderd State.reset) = some (.u16 0x0000) ∧
    answerOf (exec .moderd (moving 3 0 0 0 true true)) = some (.u16 0x4307) := by decide

/-- PT-3: both readings of the open parameter, on the mode register 0x8507. -/
theorem test_pt_3 : hostModeByte .high 0x8507 = 0x85 ∧ hostModeByte .low 0x8507 = 0x07 := by decide

theorem test_pt_4 : latchOf (exec (.modewl 0x1F) State.reset) = some 15 := by decide

theorem test_pt_5 : modeOf (exec (.modewh 0xFB) State.reset) = some 0x0300 := by decide

theorem test_pt_6 : (after (exec (.dmaawr 0xFFFF) State.reset)).map (fun t => t.transfer.address) = some 0x7FFF8 ∧
    answerOf (exec .dmaard (moving 0 0x7FFF8 0 0 false false)) = some (.u16 0xFFFF) := by decide

theorem test_pt_7_8 : answerOf (exec .dmaard (moving 5 0x01002 0 0 false false)) = some (.u16 0x0200) ∧
    answerOf (exec .dmaard (moving 5 0x01008 0 0 false false)) = some (.u16 0x0201) := by decide

theorem test_pt_10 : answerOf (exec .swrd (State.reset.setStopwatch 5)) = some (.u16 0x0005) ∧
    after (exec (.swwr 0x1234) (State.reset.setStopwatch 5)) = some State.reset := by decide

theorem test_pt_11 : (after (exec (.stepTick 100) (State.reset.setStopwatch 0xFFF))).map State.stopwatch = some 0 := by decide

/-- PT-12, with the port call R177 makes all the same. -/
theorem test_pt_12 :
    (after (exec .poll (bothPending 0))).map (fun t => (t.irq.line, t.events)) = some (true, [.irqRaise]) := by decide

/-! ### Interrupts and resets (vectors IRQ-1 to RS-1) -/

/-- IRQ-3 and IRQ-4: one flip each way. -/
theorem test_irq_3_4 :
    let low := (atLatch 1).setIrq { State.reset.irq with decoder := { enable := false, pending := true } }
    let high := (atLatch 1).setIrq { State.reset.irq with decoder := { enable := true, pending := true }, line := true }
    (after (exec (.wrIfctrl 0x00) high)).map (fun t => (t.irq.line, t.events)) = some (false, [.irqLower]) ∧
    (after (exec (.wrIfctrl 0x20) low)).map (fun t => (t.irq.line, t.events)) = some (true, [.irqRaise]) := by decide

/-- IRQ-5: the transfer term keeps the line high. -/
theorem test_irq_5 :
    (after (exec .rdStat3 (bothPending 15))).map (fun t => (t.irq.line, t.irq.decoder.pending)) = some (true, false) := by
  decide

/-- RS-1: no port call. -/
theorem test_rs_1 :
    after (exec .construct { bothPending 9 with ring := headerRing, stopwatch := 7 }) = some State.reset := by decide

/-- IRQ-8 and RS-3: all but the ring, whose contents are free. -/
theorem test_rs_3 (m : Memory) :
    (after (exec .sysReset { bothPending 9 with stopwatch := 7 })).map (fun t => { t with ring := m }) =
      some { State.reset with ring := m, events := [.irqLower], draws := 1 } := rfl

/-! ### Program text (ENC-16, ENC-17) -/

/-- ENC-16: two text reads from latch 9 are PTH then WAL. -/
theorem test_enc_16 : TextLine.resolve 9 .regrd = .rdPth ∧ TextLine.resolve 10 .regrd = .rdWal := by decide

/-- ENC-17, as text lines. -/
theorem test_enc_17 : wrPair 4 0x0930 = [.other (.modewl 4), .regwr 0x30, .regwr 0x09] := by decide

/-- R80: how transactions print. -/
theorem test_print : printInstr (.wrCtrl0 0x84) = "REGWR #0x84 ; CTRL0" ∧ printInstr .rdStat3 = "REGRD ; STAT3" ∧
    printInstr (.dmaawr 0x0100) = "DMAAWR #0x0100" := by decide

/-! ### Witnesses: a state and operands that meet the hypotheses of each obligation, clause by clause -/

theorem witness_ConstantSlotReads : (atLatch 0).regfile.address = 0 ∧ (atLatch 12).regfile.address = 12 ∧
    (atLatch 13).regfile.address = 13 := by decide

theorem witness_CounterSlotReads : (atLatch 2).regfile.address = 2 ∧ (atLatch 8).regfile.address = 8 ∧
    (atLatch 9).regfile.address = 9 ∧ (atLatch 10).regfile.address = 10 ∧ (atLatch 11).regfile.address = 11 := by decide

theorem witness_DbchAndStat2Reads : (atLatch 3).regfile.address = 3 ∧ (atLatch 14).regfile.address = 14 := by decide

theorem witness_IfstatRead : (bothPending 1).regfile.address = 1 := by decide

theorem witness_HeaderSlotReads :
    (∀ k : Slot, k = 4 ∨ k = 5 ∨ k = 6 ∨ k = 7 → (atLatch k).control.head = false ∧ (atLatch k).regfile.address = k) ∧
    (∀ k : Slot, k = 4 ∨ k = 5 ∨ k = 6 ∨ k = 7 →
      (subheader k).control.head = true ∧ (subheader k).regfile.address = k) := by decide

theorem witness_Stat3ReadAcknowledges : (bothPending 15).regfile.address = 15 := by decide

theorem witness_WindowLatchAdvance :
    (slotOf (.wrSbout 0) = some 0 ∧ ∃ t, exec (.wrSbout 0) (atLatch 0) = .next t) ∧
    (slotOf .rdStat2 = some 14 ∧ ∃ t, exec .rdStat2 (atLatch 14) = .next t) ∧
    (slotOf .rdStat3 = some 15 ∧ ∃ t, exec .rdStat3 (atLatch 15) = .next t) :=
  ⟨⟨rfl, _, rfl⟩, ⟨rfl, _, rfl⟩, ⟨rfl, _, rfl⟩⟩

theorem witness_WrongSlotRefused : slotOf .rdStat3 = some 15 ∧ (atLatch 3).regfile.address ≠ 15 := by decide

theorem witness_CounterByteWrites : (atLatch 2).regfile.address = 2 ∧ (atLatch 8).regfile.address = 8 ∧
    (atLatch 9).regfile.address = 9 := by decide

theorem witness_SplitCounterByteWrites : (atLatch 3).regfile.address = 3 ∧ (atLatch 4).regfile.address = 4 ∧
    (atLatch 5).regfile.address = 5 ∧ (atLatch 12).regfile.address = 12 ∧ (atLatch 13).regfile.address = 13 := by decide

theorem witness_IfctrlWrite : (bothPending 1).regfile.address = 1 := by decide

theorem witness_ControlWrites : (atLatch 10).regfile.address = 10 ∧ (atLatch 11).regfile.address = 11 := by decide

theorem witness_EffectlessWrites : (atLatch 0).regfile.address = 0 ∧ (atLatch 14).regfile.address = 14 := by decide

theorem witness_DtrgWrite : (atLatch 6).regfile.address = 6 ∧ (atLatch 6).transfer.enable = false ∧
    ((moving 3 0 0 4 false false).setLatch 6).regfile.address = 6 ∧
    ((moving 3 0 0 4 false false).setLatch 6).transfer.enable = true := by decide

theorem witness_DtackWrite : (bothPending 7).regfile.address = 7 := by decide

theorem witness_ResetWrite : (bothPending 15).regfile.address = 15 := by decide

/-- R151: the boundary destinations 3 and 6 lie outside 4, 5 and 7. -/
theorem witness_TransferGating : (moving 5 0 0 4 true false).transfer.ready = false ∧
    State.reset.transfer.active = false ∧
    (∀ d : BitVec 3, d = 3 ∨ d = 6 → (moving d 0 0 4 true false).transfer.destination ≠ 4 ∧
      (moving d 0 0 4 true false).transfer.destination ≠ 5 ∧ (moving d 0 0 4 true false).transfer.destination ≠ 7) := by
  decide

theorem witness_HostReadMovesWord : (moving 2 0 0 3 true true).transfer.ready = true ∧
    2 < (moving 2 0 0 3 true true).transfer.length.toNat ∧ (moving 2 0 0 2 true true).transfer.ready = true ∧
    (moving 2 0 0 2 true true).transfer.length.toNat ≤ 2 := by decide

theorem witness_DmaMovesWord : ∀ d : BitVec 3, d = 4 ∨ d = 5 ∨ d = 7 →
    (moving d 0x7FFFE 0 3 true false).transfer.active = true ∧
    (moving d 0x7FFFE 0 3 true false).transfer.destination = d ∧ 2 < (moving d 0x7FFFE 0 3 true false).transfer.length.toNat ∧
    (moving d 0x7FFFE 0 2 true false).transfer.length.toNat ≤ 2 ∧
    0x0000 = bigEndianWord (moving d 0x7FFFE 0 3 true false).ring 0 ∧
    0x7FFFE = (moving d 0x7FFFE 0 3 true false).transfer.address := by decide

/-- The shortest and the longest even length; `completed` is 0 at the start. -/
theorem witness_TransferCompletesAfterHalfLengthCalls :
    ((moving 4 0 0 2 true false).transfer.length.toNat = 2 * 1 ∧ (moving 4 0 0 2 true false).transfer.completed = false ∧
      (moving 4 0 0 2 true false).transfer.active = true ∧ (moving 4 0 0 2 true false).transfer.destination = 4) ∧
    ((moving 2 0 0 4094 true true).transfer.length.toNat = 2 * 2047 ∧
      (moving 2 0 0 4094 true true).transfer.completed = false ∧
      (moving 2 0 0 4094 true true).transfer.ready = true) := by decide

theorem witness_ProgramRamReceivesRingWords : (moving 5 0 0 4094 true false).transfer.length.toNat = 2 * 2047 ∧
    (moving 5 0 0 4094 true false).transfer.active = true ∧
    (moving 5 0 0 4094 true false).transfer.destination = 5 := by decide

theorem witness_DecodeGateAndDomain : (decoding false true 0).decoder.enable = false ∧
    (decoding true true 0).decoder.enable = true := by decide

theorem witness_DecodeHeaderOnly : (decoding true false 0).decoder.enable = true ∧
    (decoding true false 0).control.writeRequest = false ∧ (-150 : Int) ≤ -150 ∧ (449849 : Int) ≤ 449849 := by decide

/-- A priming tick of a data track at the lowest lba, and an audio tick at the highest. -/
theorem witness_DecodeCommitsHeader : (decoding true true 0).decoder.enable = true ∧
    (decoding true true 0).control.writeRequest = true ∧ ((-150 : Int) < 0 ∨ TrackKind.data = .audio) ∧
    ((449849 : Int) < 0 ∨ TrackKind.audio = .audio) := by decide

theorem witness_AudioTickKeepsPayloadArea : (decoding true true 0).decoder.enable = true ∧
    (decoding true true 0).control.writeRequest = true ∧ (-150 : Int) ≤ -150 ∧ (449849 : Int) ≤ 449849 := by decide

theorem witness_HeaderModeFollowsTrackKind : (decoding true false 0).decoder.enable = true ∧
    (∃ t, exec (.decodeSector (-150) .audio 0) (decoding true false 0) = .next t) ∧
    ∃ t, exec (.decodeSector 449849 .data 0) (decoding true false 0) = .next t :=
  ⟨rfl, ⟨_, rfl⟩, ⟨_, rfl⟩⟩

/-- The first sector of an image that ends with it. -/
theorem witness_DecodeIsoSector :
    (withTrack isoTrack (decoding true true 0)).decoder.enable = true ∧
    (withTrack isoTrack (decoding true true 0)).control.writeRequest = true ∧
    (withTrack isoTrack (decoding true true 0)).disc[0]? = some isoTrack ∧ isoTrack.layout = .iso ∧
    0 * 2048 + 2048 ≤ isoTrack.image.length :=
  ⟨rfl, rfl, rfl, rfl, by rw [isoTrack, rampBytes, List.length_map, List.length_range]⟩

theorem witness_DecodeBinCueSector :
    (withTrack binCueTrack (decoding true true 0)).decoder.enable = true ∧
    (withTrack binCueTrack (decoding true true 0)).control.writeRequest = true ∧
    (withTrack binCueTrack (decoding true true 0)).disc[0]? = some binCueTrack ∧ binCueTrack.layout = .binCue ∧
    16 = 0 * binCueTrack.sectorSize + 16 ∧ 16 + 2048 ≤ binCueTrack.image.length :=
  ⟨rfl, rfl, rfl, rfl, rfl, by rw [binCueTrack, List.length_append, rampBytes, List.length_map, List.length_range]; decide⟩

/-- No track, and the second sector of an image that holds one. -/
theorem witness_ShortImageReadRefused : (decoding true true 0).decoder.enable = true ∧
    (decoding true true 0).control.writeRequest = true ∧ (decoding true true 0).disc[0]? = none ∧
    (withTrack isoTrack (decoding true true 0)).disc[0]? = some isoTrack ∧
    isoTrack.image.length < (if isoTrack.layout = .iso then 1 * 2048 else 1 * isoTrack.sectorSize + 16) + 2048 :=
  ⟨rfl, rfl, rfl, rfl, by rw [isoTrack, rampBytes, List.length_map, List.length_range]; decide⟩

theorem witness_BcdEncoding : (0 : Nat) ≤ 99 ∧ (99 : Nat) ≤ 99 := by decide

theorem witness_PollDrivesLine :
    true = (((bothPending 0).irq.decoder.enable && (bothPending 0).irq.decoder.pending) ||
      ((bothPending 0).irq.transfer.enable && (bothPending 0).irq.transfer.pending)) ∧ (bothPending 0).lineDriven := by
  decide

theorem witness_StepRunsDecodedTransaction :
    decode { State.reset with input := [0x21, 0x0C, 0x20] }.input = .ok (.modewl 0x0C, [0x20]) := by decide

theorem witness_ReservedAndUndecodedInput : State.reset.input = [] ∧
    decode { State.reset with input := [0x29] }.input = .error (.reserved 0x29) ∧
    ({ State.reset with input := [0x25, 0x01] } : State).input ≠ [] ∧
    decode { State.reset with input := [0x25, 0x01] }.input = .error .truncated ∧
    decode { State.reset with input := [0x40, 0, 0, 0, 0, 2, 0] }.input = .error (.badKind 2) := by decide

theorem witness_DecodeOfEncode : WellFormed (.decodeSector (-(2 ^ 31)) .data 255) = true ∧
    WellFormed (.stepTick (2 ^ 32 - 1)) = true := by decide

theorem witness_EncodeOfDecode :
    decode [0x40, 0x80, 0x00, 0x00, 0x00, 1, 0xFF, 0x43] = .ok (.decodeSector (-(2 ^ 31)) .data 255, [0x43]) := by decide

/-- A state that is not the power-on state, meets every invariant, and steps. -/
def running : State :=
  { moving 5 0x00800 0x0930 4 true false with
    ring := headerRing, header := { minute := 0x99, second := 0x59, frame := 0x74, mode := 0x01 }, input := [0x42] }

theorem witness_RingStaysCanonical : running.ringCanonical ∧ ∃ t, step running = .next t := ⟨by decide, _, rfl⟩

theorem witness_LineFollowsSources : running.lineDriven ∧ ∃ t, step running = .next t := ⟨by decide, _, rfl⟩

theorem witness_TransferStaysInTableRow : running.transferRow ∧ ∃ t, step running = .next t := ⟨by decide, _, rfl⟩

theorem witness_ModeFormStaysMirror : running.modeFormMirror ∧ ∃ t, step running = .next t := ⟨by decide, _, rfl⟩

theorem witness_HeaderStaysTimecode : running.headerIsTimecode ∧ ∃ t, step running = .next t := ⟨by decide, _, rfl⟩

theorem witness_StubsStayAtRest : running.stubsAtRest ∧ ∃ t, step running = .next t := ⟨by decide, _, rfl⟩

theorem witness_AddressStaysEven : running.addressEven ∧ ∃ t, step running = .next t := ⟨by decide, _, rfl⟩

/-- The ring changes on a priming tick; `valid` rises with it and falls on a STAT3 read. -/
theorem witness_RingAndValidWriters :
    (after (exec (.decodeSector (-1) .data 0) (decoding true true 0))).map (fun t => (decide (t.ring ≠ []), t.decoder.valid)) =
      some (true, true) ∧
    (decoding true true 0).ring = [] ∧ (decoding true true 0).decoder.valid = false ∧
    (after (exec .rdStat3 ((atLatch 15).setDecoder { State.reset.decoder with valid := true }))).map
      (fun t => t.decoder.valid) = some false := by decide

/-- The latch moves on MODEWL; a transfer becomes active on DTRG and completes on its last `dma()`. -/
theorem witness_LatchAndTransferMovers :
    latchOf (exec (.modewl 15) (atLatch 0)) = some 15 ∧
    (after (exec (.wrDtrg 0) ((moving 5 0 0 2 false false).setLatch 6))).map (fun t => t.transfer.active) = some true ∧
    (after (exec .dma (moving 5 0 0 2 true false))).map (fun t => t.transfer.completed) = some true := by decide

theorem witness_ExternalPortUsers : (∃ t, exec .poll (bothPending 0) = .next t) ∧ Instr.poll ≠ .dma ∧
    ∀ (lba : Int) (track : Nat), Instr.poll ≠ .decodeSector lba .data track :=
  ⟨⟨_, rfl⟩, by decide, fun _ _ h => by cases h⟩

/-- Two states that differ in the status and control bits no transaction can observe. -/
theorem witness_HiddenStateUnobservable :
    (atLatch 1).visible = ((atLatch 1).setStatus { State.reset.status with enable := true, wait := true }).visible ∧
    atLatch 1 ≠ (atLatch 1).setStatus { State.reset.status with enable := true, wait := true } := by decide

/-- A run of one read that ends at latch 15, and the longest run, of 14 reads. -/
theorem witness_TextWindowAccesses : (atLatch 14).control.head = false ∧ (atLatch 14).regfile.address ≠ 0 ∧
    (atLatch 14).regfile.address.toNat + 1 ≤ 15 ∧ (atLatch 1).regfile.address ≠ 0 ∧
    (atLatch 1).regfile.address.toNat + 14 ≤ 15 := by decide

end Sys2Proof.Tests
end

/-! SUPPORT. The register window seen from the transactions: each access is one of three shared operations at its slot,
where each of them leaves the latch, and the exact next state of a read without effect. -/

namespace Sys2Proof.Machine

/-! ### The byte halves of the counters (R54) -/

theorem lowByte_eq_setWidth (w : Word) : lowByte w = w.setWidth 8 :=
  (BitVec.setWidth_eq_extractLsb' (by decide)).symm

/-- Both sides are `w.toNat >>> 8` cut to eight bits. -/
theorem highByte_eq_setWidth (w : Word) : highByte w = (w >>> 8).setWidth 8 := rfl

theorem lengthLow_eq_setWidth (n : BitVec 12) : lengthLow n = n.setWidth 8 :=
  (BitVec.setWidth_eq_extractLsb' (by decide)).symm

/-! ### Window accesses -/

/-- A read without effect changes the latch and the answer only. -/
theorem windowRead_id_eq {k k' : Slot} {s : State} {v : State → Byte} {b : Byte} (h : s.regfile.address = k)
    (hk : nextSlot k = k') (hv : v s = b) :
    windowRead k v id s = .next { s with regfile := { address := k' }, response := .u8 b } := by
  subst hk hv
  exact windowRead_of_eq h v id

/-- Every transaction of the register window is one of the three shared operations at its slot (R39, R74). -/
theorem exec_window_cases {i : Instr} {k : Slot} (h : slotOf i = some k) :
    (∃ v e, ∀ s, exec i s = windowRead k v e s) ∨ (∃ f, ∀ s, exec i s = headRead k f s) ∨
      ∃ b, ∀ s, exec i s = windowWrite k b s :=
  match i, h with
  | .rdComin, rfl | .rdIfstat, rfl | .rdDbcl, rfl | .rdDbch, rfl | .rdPtl, rfl | .rdPth, rfl | .rdWal, rfl
  | .rdWah, rfl | .rdStat0, rfl | .rdStat1, rfl | .rdStat2, rfl | .rdStat3, rfl => .inl ⟨_, _, fun _ => rfl⟩
  | .rdHead0, rfl | .rdHead1, rfl | .rdHead2, rfl | .rdHead3, rfl => .inr (.inl ⟨_, fun _ => rfl⟩)
  | .wrSbout _, rfl | .wrIfctrl _, rfl | .wrDbcl _, rfl | .wrDbch _, rfl | .wrDacl _, rfl | .wrDach _, rfl
  | .wrDtrg _, rfl | .wrDtack _, rfl | .wrWal _, rfl | .wrWah _, rfl | .wrCtrl0 _, rfl | .wrCtrl1 _, rfl
  | .wrPtl _, rfl | .wrPth _, rfl | .wrCtrl2 _, rfl | .wrReset _, rfl => .inr (.inr ⟨_, fun _ => rfl⟩)

/-- A window access that completes found the latch at its slot and leaves it at the next one (R83, R86). -/
theorem exec_window_latch {i : Instr} {k : Slot} {s t : State} (hi : slotOf i = some k) (h : exec i s = .next t) :
    s.regfile.address = k ∧ t.regfile.address = nextSlot k := by
  obtain ⟨v, e, hx⟩ | ⟨f, hx⟩ | ⟨b, hx⟩ := exec_window_cases hi
  · obtain ⟨hk, rfl⟩ := windowRead_next.1 ((hx s).symm.trans h)
    exact ⟨hk, rfl⟩
  · obtain ⟨-, hk, rfl⟩ := headRead_next.1 ((hx s).symm.trans h)
    exact ⟨hk, rfl⟩
  · obtain ⟨hk, rfl⟩ := windowWrite_next.1 ((hx s).symm.trans h)
    exact ⟨hk, rfl⟩

/-! ### The obligations -/

/-- Settles O7: R86's advance function is `nextSlot` of the slot accessed, which is the latch before the access. -/
theorem windowLatchAdvance : Obligations.WindowLatchAdvance := by
  intro i k s t hi h
  obtain ⟨rfl, ht⟩ := exec_window_latch hi h
  exact ht

/-- Settles O2: each is a read without effect of a byte of its counter. -/
theorem counterSlotReads : Obligations.CounterSlotReads := by
  intro s
  refine ⟨rfl, rfl, rfl, rfl, rfl, ?dbcl, ?ptl, ?pth, ?wal, ?wah⟩ <;> intro h
  case dbcl => exact (windowRead_id_eq h rfl (lengthLow_eq_setWidth _) : execRdDbcl s = _)
  case ptl => exact (windowRead_id_eq h rfl (lowByte_eq_setWidth _) : execRdPtl s = _)
  case pth => exact (windowRead_id_eq h rfl (highByte_eq_setWidth _) : execRdPth s = _)
  case wal => exact (windowRead_id_eq h rfl (lowByte_eq_setWidth _) : execRdWal s = _)
  case wah => exact (windowRead_id_eq h rfl (highByte_eq_setWidth _) : execRdWah s = _)

end Sys2Proof.Machine

/-! SUPPORT. Writes to the byte slots of the counters: splicing a byte into a counter is the mask and OR of the register
text, and such a write changes the transfer registers, the latch and the answer only. -/

namespace Sys2Proof.Machine

/-! ### Splicing one half of a word -/

/-- Keeping the upper `m` bits and replacing the lower `n` is a mask of the upper bits with the new ones ORed in. -/
theorem extract_append_eq_mask_or {m n : Nat} (w : BitVec (m + n)) (d : BitVec n) {mask : BitVec (m + n)}
    (hmask : mask = BitVec.allOnes m ++ 0#n) :
    w.extractLsb' n m ++ d = (w &&& mask) ||| d.setWidth (m + n) := by
  subst hmask
  ext i hi
  by_cases hn : i < n
  · simp [BitVec.getElem_append, hn]
  · have hadd : n + (i - n) = i := by omega
    have hd : d.getLsbD i = false := BitVec.getLsbD_of_ge d i (by omega)
    simp [BitVec.getElem_append, hn, hadd, hd, BitVec.getLsbD_eq_getElem hi]

/-- Keeping the lower `n` bits and replacing the upper `m` is a mask of the lower bits with the new ones, moved up by
`n`, ORed in. -/
theorem append_extract_eq_mask_or {m n : Nat} (w : BitVec (m + n)) (d : BitVec m) {mask : BitVec (m + n)}
    (hmask : mask = 0#m ++ BitVec.allOnes n) :
    d ++ w.extractLsb' 0 n = (w &&& mask) ||| (d.setWidth (m + n) <<< n) := by
  subst hmask
  ext i hi
  by_cases hn : i < n
  · simp [BitVec.getElem_append, hn, BitVec.getLsbD_eq_getElem hi]
  · have hlt : i - n < m := by omega
    simp [BitVec.getElem_append, hn, BitVec.getLsbD_eq_getElem hlt]

theorem setLowByte_eq_mask_or (w : Word) (d : Byte) : setLowByte w d = (w &&& 0xFF00) ||| d.setWidth 16 :=
  extract_append_eq_mask_or (m := 8) (n := 8) w d (by decide)

theorem setHighByte_eq_mask_or (w : Word) (d : Byte) : setHighByte w d = (w &&& 0x00FF) ||| (d.setWidth 16 <<< 8) :=
  append_extract_eq_mask_or (m := 8) (n := 8) w d (by decide)

theorem setLengthLow_eq_mask_or (n : BitVec 12) (d : Byte) : setLengthLow n d = (n &&& 0xF00) ||| d.setWidth 12 :=
  extract_append_eq_mask_or (m := 4) (n := 8) n d (by decide)

/-! ### Writes to the transfer registers -/

/-- A write whose body replaces the transfer registers changes them, the latch and the answer only. -/
theorem windowWrite_setTransfer_eq {k k' : Slot} {s : State} {g : State → Transfer} (h : s.regfile.address = k)
    (hk : nextSlot k = k') :
    windowWrite k (fun s => s.setTransfer (g s)) s =
      .next { s with regfile := { address := k' }, transfer := g s, response := .none } := by
  subst hk
  exact windowWrite_of_eq h _

/-! ### The obligations -/

/-- Settles O9: each is a write of the transfer registers that splices the byte into its counter. -/
theorem counterByteWrites : Obligations.CounterByteWrites := by
  intro s d
  refine ⟨rfl, rfl, rfl, ?dbcl, ?wal, ?wah⟩ <;> intro h
  case dbcl =>
    rw [← setLengthLow_eq_mask_or]
    exact (windowWrite_setTransfer_eq h rfl : execWrDbcl d s = _)
  case wal =>
    rw [← setLowByte_eq_mask_or]
    exact (windowWrite_setTransfer_eq h rfl : execWrWal d s = _)
  case wah =>
    rw [← setHighByte_eq_mask_or]
    exact (windowWrite_setTransfer_eq h rfl : execWrWah d s = _)

end Sys2Proof.Machine

/-! SUPPORT. The header a decode tick leaves: its mode byte follows the track kind alone, no later step of the tick
touches it, and its other bytes hold one decimal digit in each nibble. -/

namespace Sys2Proof.Machine

/-! ### The digits of a timecode byte (R129) -/

/-- Up to 99 the units digit fits the low nibble, so the OR is a sum, and the sum fits the byte. -/
theorem bcd_toNat {v : Nat} (h : v ≤ 99) : (bcd v).toNat = 16 * (v / 10) + v % 10 := by
  have hor : (v / 10) <<< 4 ||| v % 10 = 16 * (v / 10) + v % 10 := by
    rw [← Nat.shiftLeft_add_eq_or_of_lt (by omega), Nat.shiftLeft_eq, Nat.mul_comm]
  rw [bcd, hor, BitVec.toNat_ofNat]
  omega

/-! ### The header through a decode tick (R125, R130) -/

@[simp] theorem headerFor_mode_audio (n : Nat) : (headerFor n .audio).mode = 0x00 := rfl

@[simp] theorem headerFor_mode_data (n : Nat) : (headerFor n .data).mode = 0x01 := rfl

@[simp] theorem latchHeader_header (n : Nat) (kind : TrackKind) (s : State) :
    (latchHeader n kind s).header = headerFor n kind := by
  rw [latchHeader_eq, driveLine_header]

/-- Steps 5 to 8 of a tick leave the header as it was latched. -/
theorem commitSector_header {lba : Int} {track : Nat} {s t : State} (h : commitSector lba track s = .next t) :
    t.header = s.header := by
  obtain ⟨-, rfl⟩ | ⟨-, m, es, -, -, -, rfl⟩ := commitSector_next h
  · exact State.respond_header s .none
  · rfl

/-- An enabled DECODE that completes leaves the header of its frame count and track kind. -/
theorem execDecode_header {lba : Int} {kind : TrackKind} {track : Nat} {s t : State} (he : s.decoder.enable = true)
    (h : execDecode lba kind track s = .next t) : t.header = headerFor (lba + 150).toNat kind := by
  obtain ⟨hd, -⟩ | ⟨-, -, -, hc⟩ := execDecode_next h
  · rw [he] at hd
    cases hd
  · rw [commitSector_header hc, latchHeader_header]

/-! ### The obligations -/

/-- Settles O32: the header left is `headerFor` of the track kind, whose mode byte the kind alone gives. -/
theorem headerModeFollowsTrackKind : Obligations.HeaderModeFollowsTrackKind := by
  intro s t lba kind track he h
  rw [execDecode_header he h]
  cases kind with
  | audio => exact ⟨fun _ => headerFor_mode_audio _, fun hk => absurd rfl hk⟩
  | data => exact ⟨fun hk => (nomatch hk), fun _ => headerFor_mode_data _⟩

/-- Settles O36: the byte is `16 * (v / 10) + v % 10`, and dividing by 16 takes the two digits apart. -/
theorem bcdEncoding : Obligations.BcdEncoding := by
  intro v hv
  rw [bcd_toNat hv]
  omega

end Sys2Proof.Machine

/-! SUPPORT. The bus ports: the mode register as an OR of its shifted fields, and the DMA address a write stores, the
word written with three zero bits below it. -/

namespace Sys2Proof.Machine

/-! ### The mode register (R45, R158) -/

/-- A flag moved up to bit `n` of a word is that bit's mask or 0. -/
theorem setWidth_ofBool_shiftLeft (b : Bool) (n : Nat) :
    (BitVec.ofBool b).setWidth 16 <<< n = if b then 1#16 <<< n else 0 := by
  cases b with
  | false => exact BitVec.zero_shiftLeft n
  | true => rfl

/-- Each field of the mode register stands at its own bit; the two runs of zeros contribute nothing. -/
theorem modeRegister_eq_shifted_fields (s : State) :
    modeRegister s =
      (BitVec.ofBool s.transfer.completed).setWidth 16 <<< 15 |||
        (BitVec.ofBool s.transfer.ready).setWidth 16 <<< 14 ||| s.transfer.destination.setWidth 16 <<< 8 |||
        s.regfile.address.setWidth 16 := by
  calc modeRegister s
    _ = (modeRegister s).setWidth 16 := (BitVec.setWidth_eq _).symm
    _ = (BitVec.ofBool s.transfer.completed ++ BitVec.ofBool s.transfer.ready ++ 0#3).setWidth 16 <<< 11 |||
          s.transfer.destination.setWidth 16 <<< 8 ||| (0#4).setWidth 16 <<< 4 ||| s.regfile.address.setWidth 16 :=
        BitVec.setWidth_append_append_append_eq_shiftLeft_setWidth_or
    _ = _ := by
        rw [BitVec.setWidth_append_append_eq_shiftLeft_setWidth_or]
        simp [BitVec.shiftLeft_or_distrib, ← BitVec.shiftLeft_add]

/-- R158's OR: the shifted fields in the order of the text, the two flags as masks. -/
theorem modeRegister_eq_or (s : State) :
    modeRegister s =
      s.regfile.address.setWidth 16 ||| (s.transfer.destination.setWidth 16 <<< 8) |||
        (if s.transfer.ready then 0x4000 else 0) ||| (if s.transfer.completed then 0x8000 else 0) := by
  have hready : _ = if s.transfer.ready then (0x4000 : Word) else 0 := setWidth_ofBool_shiftLeft s.transfer.ready 14
  have hcompleted : _ = if s.transfer.completed then (0x8000 : Word) else 0 :=
    setWidth_ofBool_shiftLeft s.transfer.completed 15
  rw [modeRegister_eq_shifted_fields, hready, hcompleted]
  ac_rfl

/-! ### The DMA address (R162, R163) -/

/-- Appending `n` zero bits is widening by them and shifting left. -/
theorem append_zero_eq_shiftLeft {m n : Nat} (v : BitVec m) : v ++ 0#n = v.setWidth (m + n) <<< n := by
  rw [← BitVec.setWidth_eq (v ++ 0#n), BitVec.setWidth_append_eq_shiftLeft_setWidth_or, BitVec.setWidth_zero,
    BitVec.or_zero]

theorem execDmaawr_eq (v : Word) (s : State) :
    execDmaawr v s =
      .next { s with transfer := { s.transfer with address := v.setWidth 19 <<< 3 }, response := .none } := by
  rw [← append_zero_eq_shiftLeft (n := 3) v]
  rfl

/-! ### The obligations -/

/-- Settles O17: MODERD answers the mode register, whose fields are the four terms of the OR. -/
theorem modeRegisterRead : Obligations.ModeRegisterRead := by
  intro s
  rw [← modeRegister_eq_or]
  exact ⟨rfl, rfl⟩

/-- Settles O20: a write appends three zero bits, which is the shift by 3; a read drops them. -/
theorem dmaAddressPort : Obligations.DmaAddressPort := by
  intro s v
  exact ⟨rfl, rfl, execDmaawr_eq v s, rfl⟩

/-- Settles O21: the operand is not used and the counter is set to 0. -/
theorem stopwatchWriteClears : Obligations.StopwatchWriteClears := by
  intro s v
  exact ⟨rfl, rfl⟩

end Sys2Proof.Machine

/-! SUPPORT. The decoder and the encoder undo each other: the selector byte is its class and its `op` field, the bytes
of a multi-byte operand join to the operand, and each class is read row by row. -/

namespace Sys2Proof

/-! ### Operand bytes -/

theorem word_join (v : Word) : v.extractLsb' 8 8 ++ v.extractLsb' 0 8 = v := by
  rw [BitVec.extractLsb'_append_extractLsb'_eq_extractLsb' (by decide)]
  exact BitVec.extractLsb'_eq_self

theorem quad_join (v : BitVec 32) :
    v.extractLsb' 24 8 ++ v.extractLsb' 16 8 ++ v.extractLsb' 8 8 ++ v.extractLsb' 0 8 = v := by
  iterate 3 rw [BitVec.extractLsb'_append_extractLsb'_eq_extractLsb' (by decide)]
  exact BitVec.extractLsb'_eq_self

theorem wordBytes_append (hi lo : Byte) : wordBytes (hi ++ lo) = [hi, lo] := by
  rw [wordBytes, BitVec.extractLsb'_append_eq_left, BitVec.extractLsb'_append_eq_right]

theorem quadBytes_append (b3 b2 b1 b0 : Byte) : quadBytes (b3 ++ b2 ++ b1 ++ b0) = [b3, b2, b1, b0] := by
  unfold quadBytes
  congr 1
  · iterate 3 rw [BitVec.extractLsb'_append_eq_of_le (by decide)]
    exact BitVec.extractLsb'_eq_self
  congr 1
  · iterate 2 rw [BitVec.extractLsb'_append_eq_of_le (by decide)]
    exact BitVec.extractLsb'_append_eq_right
  congr 1
  · rw [BitVec.extractLsb'_append_eq_of_le (by decide)]
    exact BitVec.extractLsb'_append_eq_right
  · rw [BitVec.extractLsb'_append_eq_right]

theorem kindOfByte_eq_some {b : Byte} {kind : TrackKind} : kindOfByte b = some kind ↔ b = byteOfKind kind := by
  cases kind <;> revert b <;> decide

/-! ### Taking operands -/

theorem takeByte_ok {mk : Byte → Instr} {bs rest : List Byte} {i : Instr} :
    takeByte mk bs = .ok (i, rest) ↔ ∃ d, i = mk d ∧ bs = d :: rest := by
  cases bs <;> simp [takeByte, eq_comm, and_comm]

theorem takeWord_ok {mk : Word → Instr} {bs rest : List Byte} {i : Instr} :
    takeWord mk bs = .ok (i, rest) ↔ ∃ v, i = mk v ∧ bs = wordBytes v ++ rest := by
  constructor
  · intro h
    unfold takeWord at h
    split at h
    · rename_i hi lo r
      cases h
      exact ⟨hi ++ lo, rfl, by rw [wordBytes_append]; rfl⟩
    · cases h
  · rintro ⟨v, rfl, rfl⟩
    simp [wordBytes, takeWord, word_join]

/-- The bytes STEP takes are those of a count inside its range. -/
theorem takeCycles_ok {bs rest : List Byte} {i : Instr} :
    takeCycles bs = .ok (i, rest) ↔
      ∃ cycles, i = .stepTick cycles ∧ cycles < 2 ^ 32 ∧ bs = quadBytes (BitVec.ofNat 32 cycles) ++ rest := by
  constructor
  · intro h
    unfold takeCycles at h
    split at h
    · rename_i b3 b2 b1 b0 r
      cases h
      exact ⟨_, rfl, BitVec.isLt _, by rw [BitVec.ofNat_toNat, BitVec.setWidth_eq, quadBytes_append]; rfl⟩
    · cases h
  · rintro ⟨cycles, rfl, hc, rfl⟩
    have hn : (BitVec.ofNat 32 cycles).toNat = cycles := Nat.mod_eq_of_lt hc
    simp only [quadBytes, takeCycles, List.cons_append, List.nil_append, quad_join, hn]

/-- The bytes DECODE takes are those of operands inside their ranges. -/
theorem takeDecode_ok {bs rest : List Byte} {i : Instr} :
    takeDecode bs = .ok (i, rest) ↔
      ∃ lba kind track, i = .decodeSector lba kind track ∧ (-2 ^ 31 ≤ lba ∧ lba < 2 ^ 31) ∧ track < 256 ∧
        bs = quadBytes (BitVec.ofInt 32 lba) ++ [byteOfKind kind, BitVec.ofNat 8 track] ++ rest := by
  constructor
  · intro h
    unfold takeDecode at h
    split at h
    · rename_i b3 b2 b1 b0 kb tr r
      split at h
      · rename_i kind hk
        cases h
        have hlo := BitVec.le_toInt (b3 ++ b2 ++ b1 ++ b0)
        have hhi := BitVec.toInt_lt (x := b3 ++ b2 ++ b1 ++ b0)
        refine ⟨_, _, _, rfl, ⟨hlo, hhi⟩, tr.isLt, ?_⟩
        rw [kindOfByte_eq_some.1 hk, BitVec.ofInt_toInt, quadBytes_append, BitVec.ofNat_toNat, BitVec.setWidth_eq]
        rfl
      · cases h
    · cases h
  · rintro ⟨lba, kind, track, rfl, ⟨hlo, hhi⟩, ht, rfl⟩
    have hlba : (BitVec.ofInt 32 lba).toInt = lba := BitVec.toInt_ofInt_eq_self (by decide) hlo hhi
    simp [quadBytes, takeDecode, quad_join, kindOfByte_eq_some.2 rfl, hlba, Nat.mod_eq_of_lt ht]

/-! ### The selector byte -/

/-- A selector is its class above its `op` field (R73). -/
theorem selector_split (sel : Byte) : sel.toNat = 32 * (selClass sel).toNat + (selOp sel).toNat := by
  simp only [selClass, selOp, BitVec.extractLsb'_toNat, Nat.shiftRight_eq_div_pow]
  omega

theorem selector_eq {sel : Byte} {c o : Nat} (hc : (selClass sel).toNat = c) (ho : (selOp sel).toNat = o) :
    sel = BitVec.ofNat 8 (32 * c + o) := by
  rw [← hc, ← ho, ← selector_split, BitVec.ofNat_toNat, BitVec.setWidth_eq]

/-- The selector of a window access is its `dir` bit above its slot (R74). -/
theorem window_selector {sel : Byte} (hc : (selClass sel).toNat = 0) :
    sel = if selDir sel then 0x10 ||| (selSlot sel).setWidth 8 else (selSlot sel).setWidth 8 := by
  revert sel; decide

theorem encode_readRow (k : Slot) : encode (readRow k) = [k.setWidth 8] := by
  revert k; decide

theorem encode_writeRow (k : Slot) (d : Byte) : encode (writeRow k d) = [0x10 ||| k.setWidth 8, d] := by
  fin_cases k <;> rfl

theorem wellFormed_readRow (k : Slot) : WellFormed (readRow k) = true := by
  revert k; decide

theorem wellFormed_writeRow (k : Slot) (d : Byte) : WellFormed (writeRow k d) = true := by
  fin_cases k <;> rfl

theorem wellFormed_decodeSector {lba : Int} {kind : TrackKind} {track : Nat} :
    WellFormed (.decodeSector lba kind track) = true ↔ (-2 ^ 31 ≤ lba ∧ lba < 2 ^ 31) ∧ track < 256 := by
  simp only [WellFormed, lbaInRange, trackInRange, Bool.and_eq_true, decide_eq_true_eq]

/-! ### The four classes -/

theorem decode_window {sel : Byte} (hc : (selClass sel).toNat = 0) (bs : List Byte) :
    decode (sel :: bs) = decodeWindow sel bs := by
  simp only [decode, hc]

theorem decode_port {sel : Byte} (hc : (selClass sel).toNat = 1) (bs : List Byte) :
    decode (sel :: bs) = decodePort sel bs := by
  simp only [decode, hc]

theorem decode_entry {sel : Byte} (hc : (selClass sel).toNat = 2) (bs : List Byte) :
    decode (sel :: bs) = decodeEntry sel bs := by
  simp only [decode, hc]

theorem decode_reserved_class {sel : Byte} (hc : 3 ≤ (selClass sel).toNat) (bs : List Byte) :
    decode (sel :: bs) = .error (.reserved sel) := by
  simp only [decode]
  split
  case h_4 => rfl
  all_goals omega

theorem selClass_cases (sel : Byte) :
    (selClass sel).toNat = 0 ∨ (selClass sel).toNat = 1 ∨ (selClass sel).toNat = 2 ∨ 3 ≤ (selClass sel).toNat := by
  omega

/-! ### What each class accepts -/

theorem decodeWindow_ok {sel : Byte} {bs rest : List Byte} {i : Instr} (hc : (selClass sel).toNat = 0)
    (h : decodeWindow sel bs = .ok (i, rest)) : WellFormed i = true ∧ sel :: bs = encode i ++ rest := by
  have hsel := window_selector hc
  unfold decodeWindow at h
  split at h
  · rename_i hd
    obtain ⟨d, rfl, rfl⟩ := takeByte_ok.1 h
    rw [if_pos hd] at hsel
    exact ⟨wellFormed_writeRow _ d, by rw [encode_writeRow, ← hsel]; rfl⟩
  · rename_i hd
    cases h
    rw [if_neg hd] at hsel
    exact ⟨wellFormed_readRow _, by rw [encode_readRow, ← hsel]; rfl⟩

theorem decodePort_ok {sel : Byte} {bs rest : List Byte} {i : Instr} (hc : (selClass sel).toNat = 1)
    (h : decodePort sel bs = .ok (i, rest)) : WellFormed i = true ∧ sel :: bs = encode i ++ rest := by
  unfold decodePort at h
  split at h
  case h_10 => cases h
  all_goals
    rename_i ho
    cases selector_eq hc ho
  case h_2 | h_3 =>
    obtain ⟨d, rfl, rfl⟩ := takeByte_ok.1 h
    exact ⟨rfl, rfl⟩
  case h_6 | h_9 =>
    obtain ⟨v, rfl, rfl⟩ := takeWord_ok.1 h
    exact ⟨rfl, rfl⟩
  all_goals
    cases h
    exact ⟨rfl, rfl⟩

theorem decodeEntry_ok {sel : Byte} {bs rest : List Byte} {i : Instr} (hc : (selClass sel).toNat = 2)
    (h : decodeEntry sel bs = .ok (i, rest)) : WellFormed i = true ∧ sel :: bs = encode i ++ rest := by
  unfold decodeEntry at h
  split at h
  case h_7 => cases h
  all_goals
    rename_i ho
    cases selector_eq hc ho
  case h_1 =>
    obtain ⟨lba, kind, track, rfl, hl, ht, rfl⟩ := takeDecode_ok.1 h
    exact ⟨wellFormed_decodeSector.2 ⟨hl, ht⟩, rfl⟩
  case h_2 =>
    obtain ⟨cycles, rfl, hcyc, rfl⟩ := takeCycles_ok.1 h
    exact ⟨decide_eq_true hcyc, rfl⟩
  all_goals
    cases h
    exact ⟨rfl, rfl⟩

/-! ### The obligations -/

/-- Settles O44: the class of the selector says which rows can have been read, and each row's operands are in range. -/
theorem encodeOfDecode : Obligations.EncodeOfDecode := by
  intro bs rest i h
  cases bs with
  | nil => cases h
  | cons sel bs =>
    obtain hc | hc | hc | hc := selClass_cases sel
    · exact decodeWindow_ok hc (decode_window hc bs ▸ h)
    · exact decodePort_ok hc (decode_port hc bs ▸ h)
    · exact decodeEntry_ok hc (decode_entry hc bs ▸ h)
    · rw [decode_reserved_class hc] at h
      cases h

/-- Settles O43: the selector fixes the row; only the operands of more than one byte have to be put together again. -/
theorem decodeOfEncode : Obligations.DecodeOfEncode := by
  intro i rest hwf
  rw [encode_append]
  cases i with
  | dmaawr v | swwr v =>
    rw [selector, operandBytes]
    exact takeWord_ok.2 ⟨v, rfl, rfl⟩
  | decodeSector lba kind track =>
    obtain ⟨hl, ht⟩ := wellFormed_decodeSector.1 hwf
    rw [selector, operandBytes]
    exact takeDecode_ok.2 ⟨lba, kind, track, rfl, hl, ht, rfl⟩
  | stepTick cycles =>
    rw [selector, operandBytes]
    exact takeCycles_ok.2 ⟨cycles, rfl, of_decide_eq_true hwf, rfl⟩
  | _ => rw [selector, operandBytes]; rfl

/-- Settles O45: each word is evaluated. -/
theorem selectorWords : Obligations.SelectorWords := by
  unfold Obligations.SelectorWords
  decide

end Sys2Proof

/-! SUPPORT. What a step does with the bytes in front of it: it performs the transaction they begin with, and stops by
name on bytes that begin with none; the reserved selectors are those no transaction has. -/

namespace Sys2Proof

/-! ### Reserved selectors (R79) -/

theorem takeByte_ne_reserved (mk : Byte → Instr) (bs : List Byte) (sel : Byte) :
    takeByte mk bs ≠ .error (.reserved sel) := by
  unfold takeByte
  split <;> simp

theorem takeWord_ne_reserved (mk : Word → Instr) (bs : List Byte) (sel : Byte) :
    takeWord mk bs ≠ .error (.reserved sel) := by
  unfold takeWord
  split <;> simp

theorem takeCycles_ne_reserved (bs : List Byte) (sel : Byte) : takeCycles bs ≠ .error (.reserved sel) := by
  unfold takeCycles
  split <;> simp

theorem takeDecode_ne_reserved (bs : List Byte) (sel : Byte) : takeDecode bs ≠ .error (.reserved sel) := by
  unfold takeDecode
  split
  · split <;> simp
  · simp

theorem decodeWindow_ne_reserved (sel : Byte) (bs : List Byte) : decodeWindow sel bs ≠ .error (.reserved sel) := by
  unfold decodeWindow
  split
  · exact takeByte_ne_reserved _ _ _
  · simp

theorem decodePort_reserved {sel : Byte} {bs : List Byte} :
    decodePort sel bs = .error (.reserved sel) ↔ 9 ≤ (selOp sel).toNat := by
  unfold decodePort
  split
  case h_10 =>
    simp only [imp_false] at *
    exact iff_of_true trivial (by omega)
  all_goals
    simp [takeByte_ne_reserved, takeWord_ne_reserved]
    omega

theorem decodeEntry_reserved {sel : Byte} {bs : List Byte} :
    decodeEntry sel bs = .error (.reserved sel) ↔ 6 ≤ (selOp sel).toNat := by
  unfold decodeEntry
  split
  case h_7 =>
    simp only [imp_false] at *
    exact iff_of_true trivial (by omega)
  all_goals
    simp [takeCycles_ne_reserved, takeDecode_ne_reserved]
    omega

/-- Reserved are the selectors of classes PORT and ENTRY past their last row, and those of the classes above. -/
theorem decode_reserved {sel : Byte} {bs : List Byte} :
    decode (sel :: bs) = .error (.reserved sel) ↔ isReserved sel = true := by
  have hsel := selector_split sel
  have hop : (selOp sel).toNat < 32 := (selOp sel).isLt
  simp only [isReserved, decide_eq_true_eq]
  obtain hc | hc | hc | hc := selClass_cases sel
  · rw [decode_window hc, iff_false_left (decodeWindow_ne_reserved sel bs)]
    omega
  · rw [decode_port hc, decodePort_reserved]
    omega
  · rw [decode_entry hc, decodeEntry_reserved]
    omega
  · rw [decode_reserved_class hc, iff_true_left rfl]
    omega

theorem selector_not_reserved (i : Instr) : isReserved (selector i) = false := by
  cases i <;> rfl

/-- Six bytes are operands enough for every row, so any selector that is not reserved begins a transaction. -/
theorem exists_selector_of_not_reserved {sel : Byte} (h : isReserved sel = false) : ∃ i, selector i = sel := by
  have hok : ∀ sel : Byte, isReserved sel = false →
      (decode (sel :: List.replicate 6 0)).toOption.isSome = true := by decide
  cases hd : decode (sel :: List.replicate 6 0) with
  | error e =>
    have := hok sel h
    rw [hd] at this
    cases this
  | ok r =>
    obtain ⟨-, hbs⟩ := encodeOfDecode _ r.2 r.1 hd
    exact ⟨r.1, (List.cons.inj hbs).1.symm⟩

end Sys2Proof

namespace Sys2Proof.Machine

/-! ### A step by what its input decodes to -/

theorem fetch_of_ne_nil {s : State} (h : s.input ≠ []) : fetch s = some (decode s.input) := by
  unfold fetch
  split
  · contradiction
  · simp_all

theorem input_ne_nil_of_decode {s : State} (h : decode s.input ≠ .error .truncated) : s.input ≠ [] :=
  fun hnil => h (by rw [hnil]; rfl)

theorem step_of_nil {s : State} (h : s.input = []) : step s = .next s := by
  simp [step, fetch, h, idle]

theorem step_of_error {s : State} {e : DecodeError} (hne : s.input ≠ []) (h : decode s.input = .error e) :
    step s = stopUndecoded e := by
  simp [step, fetch_of_ne_nil hne, h]

/-! ### The obligations -/

/-- Settles O41: input that decodes is not empty, so it is what the step fetches. -/
theorem stepRunsDecodedTransaction : Obligations.StepRunsDecodedTransaction := by
  intro s i rest h
  have hne : s.input ≠ [] := input_ne_nil_of_decode (by rw [h]; exact nofun)
  simp only [step, fetch_of_ne_nil hne, h]
  rfl

/-- Settles O42: the reserved ranges are read off class and `op`; a step stops by the decoder's error. -/
theorem reservedAndUndecodedInput : Obligations.ReservedAndUndecodedInput := by
  refine ⟨fun sel rest => ?_, fun sel => ⟨?_, fun h => ?_⟩, fun s => step_of_nil, fun s sel h => ?_,
    fun s hne h => step_of_error hne h, fun s b h => ?_⟩
  · rw [decode_reserved, isReserved, decide_eq_true_eq]
  · rintro ⟨i, rfl⟩
    exact of_decide_eq_false (selector_not_reserved i)
  · exact exists_selector_of_not_reserved (decide_eq_false h)
  · exact step_of_error (input_ne_nil_of_decode (by rw [h]; exact nofun)) h
  · exact step_of_error (input_ne_nil_of_decode (by rw [h]; exact nofun)) h

end Sys2Proof.Machine

/-! SUPPORT. What a completed transaction can do, said once: `Effect` lists the changes of state that the transactions
make, and every invariant and every frame over all transactions is read off that list. -/

namespace Sys2Proof.Machine

/-! ### Bodies as one update -/

/-- The fields an IFCTRL write sets before its poll; with bit 1 clear, `stop()` lowers the three flags (R107, R143). -/
def ifctrlWritten (d : Byte) (s : State) : State :=
  { s with
    status := { s.status with enable := d.getLsbD 0, wait := d.getLsbD 2 },
    transfer := { s.transfer with
      enable := d.getLsbD 1, wait := d.getLsbD 3, active := s.transfer.active && d.getLsbD 1,
      busy := s.transfer.busy && d.getLsbD 1, ready := s.transfer.ready && d.getLsbD 1 },
    control := { s.control with commandBreak := d.getLsbD 4 },
    irq := { s.irq with
      decoder := { s.irq.decoder with enable := d.getLsbD 5 },
      transfer := { s.irq.transfer with enable := d.getLsbD 6 } } }

theorem ifctrlBody_eq (d : Byte) (s : State) : ifctrlBody d s = driveLine (ifctrlWritten d s) := by
  unfold ifctrlBody writeIfctrlBits ifctrlWritten
  generalize d.getLsbD 1 = enable
  cases enable with
  | false => simp only [Bool.and_false]; rfl
  | true => simp only [Bool.and_true]; rfl

/-- After the body of a RESET write every field is at its power-on value but the ring, the FIFOs, the stopwatch, the
latch and the model's own fields; the poll found no source (R122, R123). -/
theorem resetBody_eq (s : State) : driveLine (stopTransfer (resetSubstates s)) = { State.reset with
    regfile := s.regfile, ring := s.ring, cmdfifo := s.cmdfifo, statfifo := s.statfifo, stopwatch := s.stopwatch,
    input := s.input, response := s.response, events := s.events ++ [.irqLower], disc := s.disc, draws := s.draws } :=
  rfl

theorem execSysReset_eq (s : State) : execSysReset s = .next { State.reset with
    ring := Memory.ofDraw (Config.ringDraw s.draws), input := s.input, events := s.events ++ [.irqLower],
    disc := s.disc, draws := s.draws + 1 } := by
  have hdraws : (resetSubstates (s.setLatch 0)).draws = s.draws := rfl
  unfold execSysReset
  simp only [hdraws]
  generalize Memory.ofDraw (Config.ringDraw s.draws) = m
  rfl

theorem execConstruct_eq (s : State) : execConstruct s = .next { State.reset with
    input := s.input, events := s.events, disc := s.disc, draws := s.draws } :=
  rfl

/-- A tick that writes: the header is latched, then the two counters, the ring and the reader's events change. -/
def committed (n : Nat) (kind : TrackKind) (pointer target : Word) (m : Memory) (es : List Event) (s : State) : State :=
  { latchHeader n kind s with
    transfer := { s.transfer with pointer := pointer, target := target }, ring := m,
    events := (latchHeader n kind s).events ++ es }

/-! ### The effects -/

/-- The changes a transaction that completes can make to the state, before a window access moves the latch and the
answer is recorded. -/
inductive Effect (s : State) : Instr → State → Prop
  | unchanged {i : Instr} : Effect s i s
  | latch (d : Byte) (k : Slot) : Effect s (.modewl d) (s.setLatch k)
  | registers {i : Instr} (destination : BitVec 3) (source target pointer : Word) (length : BitVec 12) :
      Effect s i (s.setTransfer { s.transfer with
        destination := destination, source := source, target := target, pointer := pointer, length := length })
  | address (v : Word) : Effect s (.dmaawr v) (s.setTransfer { s.transfer with address := v ++ (0 : BitVec 3) })
  | stopwatch {i : Instr} (n : BitVec 12) : Effect s i (s.setStopwatch n)
  | acknowledge : Effect s .rdStat3 (acknowledgeDecoder s)
  | ifctrl (d : Byte) : Effect s (.wrIfctrl d) (driveLine (ifctrlWritten d s))
  | start (d : Byte) : Effect s (.wrDtrg d) (driveLine ((s.setTransfer { s.transfer with
      active := true, busy := true, ready := isHostDestination s.transfer.destination, completed := false }).setIrq
      { s.irq with transfer := { s.irq.transfer with pending := false } }))
  | dtack (d : Byte) : Effect s (.wrDtack d) (dtackBody s)
  | ctrl0 (d : Byte) : Effect s (.wrCtrl0 d) (ctrl0Body d s)
  | ctrl1 (d : Byte) : Effect s (.wrCtrl1 d) (ctrl1Body d s)
  | reset (d : Byte) : Effect s (.wrReset d) { State.reset with
      regfile := s.regfile, ring := s.ring, cmdfifo := s.cmdfifo, statfifo := s.statfifo, stopwatch := s.stopwatch,
      input := s.input, response := s.response, events := s.events ++ [.irqLower], disc := s.disc, draws := s.draws }
  | poll : Effect s .poll (driveLine s)
  | hostLast (source : Word) : Effect s .hostrd (completeTransfer (s.setTransfer { s.transfer with
      source := source, length := 0 }))
  | dmaMove (source : Word) (length : BitVec 12) {es : List Event} (hes : ∀ e ∈ es, e.isPortWrite = true) :
      Effect s .dma { s with
      events := s.events ++ es,
      transfer := { s.transfer with
        source := source, address := s.transfer.address + addressAdvance s.transfer.destination, length := length } }
  | dmaLast (source : Word) {es : List Event} (hes : ∀ e ∈ es, e.isPortWrite = true) :
      Effect s .dma (completeTransfer { s with
      events := s.events ++ es,
      transfer := { s.transfer with
        source := source, address := s.transfer.address + addressAdvance s.transfer.destination, length := 0 } })
  | tick {lba : Int} {kind : TrackKind} {track n : Nat} (hn : n < 450000) (he : s.decoder.enable = true) :
      Effect s (.decodeSector lba kind track) (latchHeader n kind s)
  | sector {lba : Int} {kind : TrackKind} {track n : Nat} {pointer target : Word} {m : Memory} {es : List Event}
      (hn : n < 450000) (he : s.decoder.enable = true) (hw : s.control.writeRequest = true)
      (hm : Memory.wf s.ring → Memory.wf m) (hdisc : ∀ e ∈ es, isDiscEvent e = true)
      (hdata : es ≠ [] → kind = .data) :
      Effect s (.decodeSector lba kind track) (committed n kind pointer target m es s)
  | sysReset {m : Memory} (hm : Memory.wf m) : Effect s .sysReset { State.reset with
      ring := m, input := s.input, events := s.events ++ [.irqLower], disc := s.disc, draws := s.draws + 1 }
  | construct : Effect s .construct { State.reset with
      input := s.input, events := s.events, disc := s.disc, draws := s.draws }

/-- The state `t` after the effect of transaction `i` on `s`, a window access's move of the latch, and the answer. -/
def Completed (s : State) (i : Instr) (t : State) : Prop :=
  ∃ u r, Effect s i u ∧ (t = u.respond r ∨ ∃ k, slotOf i = some k ∧ t = (u.setLatch (nextSlot k)).respond r)

theorem windowRead_completed {i : Instr} {k : Slot} {v : State → Byte} {e : State → State} {s t : State}
    (hi : slotOf i = some k) (he : Effect s i (e s)) (h : windowRead k v e s = .next t) : Completed s i t := by
  obtain ⟨-, rfl⟩ := windowRead_next.1 h
  exact ⟨_, _, he, .inr ⟨k, hi, rfl⟩⟩

theorem headRead_completed {i : Instr} {k : Slot} {f : Header → Byte} {s t : State} (hi : slotOf i = some k)
    (h : headRead k f s = .next t) : Completed s i t := by
  obtain ⟨-, -, rfl⟩ := headRead_next.1 h
  exact ⟨_, _, .unchanged, .inr ⟨k, hi, rfl⟩⟩

theorem windowWrite_completed {i : Instr} {k : Slot} {b : State → State} {s t : State} (hi : slotOf i = some k)
    (hb : Effect s i (b s)) (h : windowWrite k b s = .next t) : Completed s i t := by
  obtain ⟨-, rfl⟩ := windowWrite_next.1 h
  exact ⟨_, _, hb, .inr ⟨k, hi, rfl⟩⟩

theorem finish_completed {i : Instr} {s u t : State} (hu : Effect s i u) (h : finish u = .next t) : Completed s i t :=
  ⟨u, .none, hu, .inl (finish_next.1 h)⟩

theorem answer_completed {i : Instr} {r : Response} {s u t : State} (hu : Effect s i u) (h : answer r u = .next t) :
    Completed s i t :=
  ⟨u, r, hu, .inl (answer_next.1 h)⟩

theorem startTransfer_effect (d : Byte) (s : State) : Effect s (.wrDtrg d) (startTransfer s) := by
  obtain h | h := startTransfer_cases s <;> rw [h]
  · exact .unchanged
  · exact .start d

theorem hostRead_effect (s : State) : Effect s .hostrd (hostRead s).2 := by
  obtain h | ⟨-, h⟩ | ⟨-, h⟩ := hostRead_cases s <;> rw [h]
  · exact .unchanged
  · exact .registers ..
  · exact .hostLast _

theorem dmaWord_effect (s : State) : Effect s .dma (dmaWord s) := by
  obtain h | ⟨-, es, hes, h⟩ := dmaWord_cases s
  · rw [h]
    exact .unchanged
  have hport : ∀ e ∈ es, e.isPortWrite = true := by
    intro e he
    obtain ⟨a, v, rfl⟩ | ⟨a, v, rfl⟩ | ⟨a, v, rfl⟩ := hes e he <;> rfl
  obtain h | h := h <;> rw [h]
  · exact .dmaMove _ _ hport
  · exact .dmaLast _ hport

theorem execDecode_completed {lba : Int} {kind : TrackKind} {track : Nat} {s t : State}
    (h : execDecode lba kind track s = .next t) : Completed s (.decodeSector lba kind track) t := by
  obtain ⟨-, rfl⟩ | ⟨he, hlo, hhi, h⟩ := execDecode_next h
  · exact ⟨_, _, .unchanged, .inl rfl⟩
  have hn : (lba + 150).toNat < 450000 := by omega
  obtain ⟨-, rfl⟩ | ⟨hw, m, es, hm, hdisc, hdata, rfl⟩ := commitSector_next h
  · exact ⟨_, _, .tick hn he, .inl rfl⟩
  · refine ⟨_, .none, .sector hn he hw hm hdisc ?_, .inl rfl⟩
    intro hes
    cases kind with
    | audio => exact absurd (hdata hes).2 (by simp)
    | data => rfl

theorem execSysReset_completed {s t : State} (h : execSysReset s = .next t) : Completed s .sysReset t := by
  have hm := Memory.wf_ofDraw (Config.ringDraw s.draws)
  rw [execSysReset_eq] at h
  generalize Memory.ofDraw (Config.ringDraw s.draws) = m at h hm
  cases h
  exact ⟨_, .none, .sysReset hm, .inl rfl⟩

/-- A transaction that answers a next state has made one of the listed changes (R85, R124 to R192). -/
theorem exec_completed {i : Instr} {s t : State} (h : exec i s = .next t) : Completed s i t := by
  unfold exec at h
  cases i with
  | rdComin | rdIfstat | rdDbcl | rdDbch | rdPtl | rdPth | rdWal | rdWah | rdStat0 | rdStat1 | rdStat2 =>
    exact windowRead_completed rfl .unchanged h
  | rdStat3 => exact windowRead_completed rfl .acknowledge h
  | rdHead0 | rdHead1 | rdHead2 | rdHead3 => exact headRead_completed rfl h
  | wrSbout | wrCtrl2 => exact windowWrite_completed rfl .unchanged h
  | wrDbcl | wrDbch | wrDacl | wrDach | wrWal | wrWah | wrPtl | wrPth =>
    exact windowWrite_completed rfl (.registers ..) h
  | wrIfctrl d => exact windowWrite_completed rfl (ifctrlBody_eq d s ▸ .ifctrl d) h
  | wrDtrg d => exact windowWrite_completed rfl (startTransfer_effect d s) h
  | wrDtack d => exact windowWrite_completed rfl (.dtack d) h
  | wrCtrl0 d => exact windowWrite_completed rfl (.ctrl0 d) h
  | wrCtrl1 d => exact windowWrite_completed rfl (.ctrl1 d) h
  | wrReset d => exact windowWrite_completed rfl (resetBody_eq s ▸ .reset d) h
  | moderd | moderdh | dmaard | swrd => exact answer_completed .unchanged h
  | hostrd => exact answer_completed (hostRead_effect s) h
  | modewl d => exact finish_completed (.latch d _) h
  | modewh => exact finish_completed (.registers ..) h
  | dmaawr v => exact finish_completed (.address v) h
  | swwr | stepTick => exact finish_completed (.stopwatch _) h
  | decodeSector => exact execDecode_completed h
  | dma => exact finish_completed (dmaWord_effect s) h
  | poll => exact finish_completed .poll h
  | sysReset => exact execSysReset_completed h
  | construct => exact finish_completed .construct h

end Sys2Proof.Machine

/-! SUPPORT. The invariants of 10_state.md and 43_transfer.md: each is checked against the list of effects, once. -/

namespace Sys2Proof.Machine

/-- What every effect keeps, every step keeps, where the input, the latch and the answer have no part in it. -/
theorem step_keeps {P : State → Prop} (hinput : ∀ s bs, P s → P (s.setInput bs))
    (hlatch : ∀ s k, P s → P (s.setLatch k)) (hrespond : ∀ s r, P s → P (s.respond r))
    (heffect : ∀ s i u, P s → Effect s i u → P u) {s t : State} (hs : P s) (h : step s = .next t) : P t := by
  obtain rfl | ⟨i, rest, h⟩ := step_next h
  · exact hs
  · obtain ⟨u, r, hu, rfl | ⟨k, -, rfl⟩⟩ := exec_completed h
    · exact hrespond u r (heffect _ i u (hinput s rest hs) hu)
    · exact hrespond _ r (hlatch u _ (heffect _ i u (hinput s rest hs) hu))

/-! ### Arithmetic of the header and the address -/

theorem bcdValue_bcd {v : Nat} (h : v ≤ 99) : bcdValue (bcd v) = v := by
  rw [bcdValue, bcd_toNat h]
  omega

theorem isBcd_bcd {v : Nat} (h : v ≤ 99) : isBcd (bcd v) := by
  rw [isBcd, bcd_toNat h]
  omega

/-- Inside the timecode's domain minute, second and frame have two digits each (R127, R128). -/
theorem msf_bounds {n : Nat} (h : n < 450000) : (msf n).1 ≤ 99 ∧ (msf n).2.1 ≤ 59 ∧ (msf n).2.2 ≤ 74 := by
  simp only [msf]
  omega

theorem headerFor_isBcd {n : Nat} (h : n < 450000) (kind : TrackKind) :
    isBcd (headerFor n kind).minute ∧ isBcd (headerFor n kind).second ∧ isBcd (headerFor n kind).frame := by
  obtain ⟨hm, hs, hf⟩ := msf_bounds h
  exact ⟨isBcd_bcd hm, isBcd_bcd (by omega), isBcd_bcd (by omega)⟩

theorem headerFor_value {n : Nat} (h : n < 450000) (kind : TrackKind) :
    bcdValue (headerFor n kind).minute = (msf n).1 ∧ bcdValue (headerFor n kind).second = (msf n).2.1 ∧
      bcdValue (headerFor n kind).frame = (msf n).2.2 := by
  obtain ⟨hm, hs, hf⟩ := msf_bounds h
  exact ⟨bcdValue_bcd hm, bcdValue_bcd (by omega), bcdValue_bcd (by omega)⟩

/-- The header of a frame count spells it: the digits put together give the count back (R127, R129). -/
theorem headerFor_spells {n : Nat} (h : n < 450000) (kind : TrackKind) : (headerFor n kind).spells n kind := by
  obtain ⟨-, hs, hf⟩ := msf_bounds h
  obtain ⟨bm, bs, bf⟩ := headerFor_isBcd h kind
  obtain ⟨vm, vs, vf⟩ := headerFor_value h kind
  refine ⟨bm, bs, bf, by omega, by omega, ?_, by cases kind <;> rfl⟩
  rw [vm, vs, vf]
  simp only [msf]
  omega

theorem isTimecode_of_spells {s : State} {n : Int} {kind : TrackKind} (h : s.header.spells n kind) :
    s.headerIsTimecode := by
  obtain ⟨bm, bs, bf, hs, hf, -, hk⟩ := h
  refine ⟨bm, bs, bf, hs, hf, ?_⟩
  rw [hk]
  cases kind with
  | audio => exact .inl rfl
  | data => exact .inr rfl

theorem addressEven_iff {s : State} : s.addressEven ↔ s.transfer.address.toNat % 2 = 0 := by
  rw [State.addressEven, ← BitVec.testBit_toNat, Nat.testBit_zero]
  simp

/-- DMAAWR stores a multiple of 8 (R162). -/
theorem append_three_zeros_even (v : Word) : (v ++ 0#3).toNat % 2 = 0 := by
  rw [BitVec.toNat_append, Nat.shiftLeft_eq, BitVec.toNat_zero, Nat.or_zero]
  omega

/-- Every advance of the external address is even (R147, R150). -/
theorem add_addressAdvance_even {a : Addr} (h : a.toNat % 2 = 0) (d : BitVec 3) :
    (a + addressAdvance d).toNat % 2 = 0 := by
  have hd : (addressAdvance d).toNat = 4 ∨ (addressAdvance d).toNat = 2 := by
    unfold addressAdvance
    split
    · exact .inl rfl
    · exact .inr rfl
  rw [BitVec.toNat_add]
  omega

theorem reset_headerIsTimecode : State.reset.headerIsTimecode := by decide

/-! ### The obligations -/

/-- Settles O47: a decode tick keeps the form, SYSRESET draws a canonical ring, CONSTRUCT empties it, and nothing else
writes the ring. -/
theorem ringStaysCanonical : Obligations.RingStaysCanonical := by
  intro s t
  refine step_keeps (fun _ _ h => h) (fun _ _ h => h) (fun _ _ h => h) fun s i u hs hu => ?_
  cases hu with
  | sector _ _ _ hm => exact hm hs
  | sysReset hm => exact hm
  | construct => exact Memory.wf_nil
  | _ => exact hs

/-- Settles O48: an effect that touches a source ends with the poll; CONSTRUCT clears sources and line together. -/
theorem lineFollowsSources : Obligations.LineFollowsSources := by
  intro s t
  refine step_keeps (fun _ _ h => h) (fun _ _ h => h) (fun _ _ h => h) fun s i u hs hu => ?_
  cases hu with
  | unchanged | latch | registers | address | stopwatch | ctrl0 | ctrl1 | dmaMove => exact hs
  | _ => rfl

/-- Settles O49: `start()`, `stop()` and `complete()` each enter a row of the table; no other effect moves a flag. -/
theorem transferStaysInTableRow : Obligations.TransferStaysInTableRow := by
  intro s t
  refine step_keeps (fun _ _ h => h) (fun _ _ h => h) (fun _ _ h => h) fun s i u hs hu => ?_
  cases hu with
  | start => exact ⟨rfl, fun _ => rfl, nofun⟩
  | hostLast | dmaLast => exact ⟨rfl, nofun, fun _ => rfl⟩
  | reset | sysReset | construct => exact ⟨rfl, nofun, nofun⟩
  | ifctrl d =>
    obtain ⟨hbusy, hready, hcompleted⟩ := hs
    simp only [State.transferRow, driveLine_transfer, ifctrlWritten, Bool.and_eq_true, Bool.and_eq_false_iff]
    exact ⟨by rw [hbusy], fun h => ⟨hready h.1, h.2⟩, fun h => .inl (hcompleted h)⟩
  | _ => exact hs

/-- Settles O50: CTRL0 and CTRL1 recompute the mirror, the resets clear both sides, and nothing else writes either. -/
theorem modeFormStaysMirror : Obligations.ModeFormStaysMirror := by
  intro s t
  refine step_keeps (fun _ _ h => h) (fun _ _ h => h) (fun _ _ h => h) fun s i u hs hu => ?_
  cases hu with
  | ctrl0 | ctrl1 | reset | sysReset | construct => exact ⟨rfl, rfl⟩
  | _ => exact hs

/-- Settles O51: a decode tick latches a header that spells its frame count, and the resets clear it to 00:00:00. -/
theorem headerStaysTimecode : Obligations.HeaderStaysTimecode := by
  intro s t
  refine step_keeps (fun _ _ h => h) (fun _ _ h => h) (fun _ _ h => h) fun s i u hs hu => ?_
  cases hu with
  | tick hn | sector hn => exact isTimecode_of_spells (headerFor_spells hn _)
  | reset | sysReset | construct => exact reset_headerIsTimecode
  | _ => exact hs

/-- Settles O52: the resets write the rest values, and nothing else writes these fields. -/
theorem stubsStayAtRest : Obligations.StubsStayAtRest := by
  intro s t
  refine step_keeps (fun _ _ h => h) (fun _ _ h => h) (fun _ _ h => h) fun s i u hs hu => ?_
  cases hu with
  | reset =>
    obtain ⟨-, hcmd, hstat, -, -⟩ := hs
    exact ⟨rfl, hcmd, hstat, rfl, rfl⟩
  | sysReset | construct => exact ⟨rfl, rfl, rfl, rfl, rfl⟩
  | _ => exact hs

/-- Settles O53: DMAAWR appends three zero bits, `dma()` adds 2 or 4, and the resets write 0. -/
theorem addressStaysEven : Obligations.AddressStaysEven := by
  intro s t
  refine step_keeps (fun _ _ h => h) (fun _ _ h => h) (fun _ _ h => h) fun s i u hs hu => ?_
  cases hu with
  | address v => exact addressEven_iff.2 (append_three_zeros_even v)
  | dmaMove | dmaLast => exact addressEven_iff.2 (add_addressAdvance_even (addressEven_iff.1 hs) _)
  | reset | sysReset | construct => exact addressEven_iff.2 rfl
  | _ => exact hs

/-- Settles O46: the power-on ring is empty and every other field is a literal. -/
theorem invariantsHoldAtReset : Obligations.InvariantsHoldAtReset := by
  refine ⟨State.reset_ring_wf, rfl, ?_, ⟨rfl, rfl⟩, ?_, ⟨rfl, rfl, rfl, rfl, rfl⟩, rfl⟩
  · decide
  · exact reset_headerIsTimecode

end Sys2Proof.Machine

/-! SUPPORT. Frames over all transactions: which of them write the ring, move `valid`, the latch and the transfer flags,
and use the external ports, read off the list of effects. -/

namespace Sys2Proof.Machine

/-! ### The ring and `decoder.valid` -/

theorem Effect.ring_writers {s u : State} {i : Instr} (hu : Effect s i u) (hne : u.ring ≠ s.ring) :
    ((∃ lba kind track, i = .decodeSector lba kind track) ∧ s.decoder.enable = true ∧
      s.control.writeRequest = true) ∨ i = .sysReset ∨ i = .construct := by
  cases hu with
  | sector _ he hw => exact .inl ⟨⟨_, _, _, rfl⟩, he, hw⟩
  | sysReset => exact .inr (.inl rfl)
  | construct => exact .inr (.inr rfl)
  | _ => exact absurd rfl hne

theorem Effect.valid_rises {s u : State} {i : Instr} (hu : Effect s i u) (h1 : u.decoder.valid = true)
    (h0 : s.decoder.valid = false) :
    (∃ lba kind track, i = .decodeSector lba kind track) ∧ s.decoder.enable = true := by
  cases hu with
  | tick _ he | sector _ he => exact ⟨⟨_, _, _, rfl⟩, he⟩
  | acknowledge | reset | sysReset | construct => exact absurd h1 Bool.false_ne_true
  | _ => exact absurd (h0.symm.trans h1) Bool.false_ne_true

theorem Effect.valid_falls {s u : State} {i : Instr} (hu : Effect s i u) (h0 : u.decoder.valid = false)
    (h1 : s.decoder.valid = true) : i = .rdStat3 ∨ (∃ d, i = .wrReset d) ∨ i = .sysReset ∨ i = .construct := by
  cases hu with
  | acknowledge => exact .inl rfl
  | reset d => exact .inr (.inl ⟨d, rfl⟩)
  | sysReset => exact .inr (.inr (.inl rfl))
  | construct => exact .inr (.inr (.inr rfl))
  | tick | sector => exact absurd h0.symm Bool.false_ne_true
  | _ => exact absurd (h0.symm.trans h1) Bool.false_ne_true

/-! ### The latch and the transfer flags -/

theorem Effect.latch_movers {s u : State} {i : Instr} (hu : Effect s i u)
    (hne : u.regfile.address ≠ s.regfile.address) : (∃ d, i = .modewl d) ∨ i = .sysReset ∨ i = .construct := by
  cases hu with
  | latch d => exact .inl ⟨d, rfl⟩
  | sysReset => exact .inr (.inl rfl)
  | construct => exact .inr (.inr rfl)
  | _ => exact absurd rfl hne

theorem Effect.active_rises {s u : State} {i : Instr} (hu : Effect s i u) (h1 : u.transfer.active = true)
    (h0 : s.transfer.active = false) : ∃ d, i = .wrDtrg d := by
  cases hu with
  | start d => exact ⟨d, rfl⟩
  | ifctrl d =>
    have h : (s.transfer.active && d.getLsbD 1) = true := h1
    rw [h0] at h
    exact absurd h Bool.false_ne_true
  | hostLast | dmaLast | reset | sysReset | construct => exact absurd h1 Bool.false_ne_true
  | _ => exact absurd (h0.symm.trans h1) Bool.false_ne_true

theorem Effect.completed_rises {s u : State} {i : Instr} (hu : Effect s i u) (h1 : u.transfer.completed = true)
    (h0 : s.transfer.completed = false) : i = .hostrd ∨ i = .dma := by
  cases hu with
  | hostLast => exact .inl rfl
  | dmaLast => exact .inr rfl
  | start | reset | sysReset | construct => exact absurd h1 Bool.false_ne_true
  | _ => exact absurd (h0.symm.trans h1) Bool.false_ne_true

/-! ### The external ports -/

/-- What a transaction may add to the events: port writes only `dma()`, image reads only a data DECODE. -/
def AddsOwnEvents (i : Instr) (s u : State) : Prop :=
  ∃ es, u.events = s.events ++ es ∧ ∀ e ∈ es, (e.isPortWrite = true → i = .dma) ∧
    (e.isImageRead = true → ∃ lba track, i = .decodeSector lba .data track)

theorem addsOwnEvents_of_eq {i : Instr} {s u : State} (h : u.events = s.events) : AddsOwnEvents i s u :=
  ⟨[], by rw [h, List.append_nil], nofun⟩

/-- A poll adds one call to the interrupt line. -/
theorem addsOwnEvents_of_line {i : Instr} {s u : State} (level : Bool) (h : u.events = s.events ++ [lineEvent level]) :
    AddsOwnEvents i s u := by
  refine ⟨_, h, fun e he => ?_⟩
  rw [List.mem_singleton.1 he]
  cases level <;> exact ⟨nofun, nofun⟩

theorem AddsOwnEvents.append {i : Instr} {s u v : State} (hu : AddsOwnEvents i s u) (hv : AddsOwnEvents i u v) :
    AddsOwnEvents i s v := by
  obtain ⟨es, he, hes⟩ := hu
  obtain ⟨fs, hf, hfs⟩ := hv
  refine ⟨es ++ fs, by rw [hf, he, List.append_assoc], fun e h => ?_⟩
  exact (List.mem_append.1 h).elim (hes e) (hfs e)

theorem isImageRead_of_isPortWrite {e : Event} (h : e.isPortWrite = true) : e.isImageRead = false := by
  cases e with
  | wramWrite | prgWrite | pcmWrite8 => rfl
  | _ => cases h

theorem isPortWrite_of_isDiscEvent {e : Event} (h : isDiscEvent e = true) : e.isPortWrite = false := by
  cases e with
  | imageRead | diag => rfl
  | _ => cases h

theorem addsOwnEvents_of_dma {s u : State} {es : List Event} (hes : ∀ e ∈ es, e.isPortWrite = true)
    (h : u.events = s.events ++ es) : AddsOwnEvents .dma s u := by
  refine ⟨es, h, fun e he => ⟨fun _ => rfl, fun hr => ?_⟩⟩
  rw [isImageRead_of_isPortWrite (hes e he)] at hr
  cases hr

theorem addsOwnEvents_of_disc {s u : State} {lba : Int} {kind : TrackKind} {track : Nat} {es : List Event}
    (hes : ∀ e ∈ es, isDiscEvent e = true) (hdata : es ≠ [] → kind = .data) (h : u.events = s.events ++ es) :
    AddsOwnEvents (.decodeSector lba kind track) s u := by
  refine ⟨es, h, fun e he => ⟨fun hw => ?_, fun _ => ⟨lba, track, ?_⟩⟩⟩
  · rw [isPortWrite_of_isDiscEvent (hes e he)] at hw
    cases hw
  · rw [hdata (List.ne_nil_of_mem he)]

theorem Effect.events {s u : State} {i : Instr} (hu : Effect s i u) : AddsOwnEvents i s u := by
  cases hu with
  | unchanged | latch | registers | address | stopwatch | ctrl0 | ctrl1 | construct => exact addsOwnEvents_of_eq rfl
  | acknowledge | ifctrl | start | dtack | poll | hostLast | tick => exact addsOwnEvents_of_line _ rfl
  | reset | sysReset => exact addsOwnEvents_of_line false rfl
  | dmaMove _ _ hes => exact addsOwnEvents_of_dma hes rfl
  | dmaLast source hes =>
    have hport : AddsOwnEvents .dma s { s with events := s.events ++ _ } := addsOwnEvents_of_dma hes rfl
    exact hport.append (addsOwnEvents_of_line _ rfl)
  | @sector lba kind track n _ _ _ _ _ _ _ _ hdisc hdata =>
    have hline : AddsOwnEvents (.decodeSector lba kind track) s (latchHeader n kind s) := addsOwnEvents_of_line _ rfl
    exact hline.append (addsOwnEvents_of_disc hdisc hdata rfl)

/-! ### Completed transactions -/

/-- Every field but the latch and the answer is as the effect left it, and the latch too outside the window. -/
theorem Completed.frame {s t : State} {i : Instr} (h : Completed s i t) :
    ∃ u, Effect s i u ∧ (∃ k r, t = (u.setLatch k).respond r) ∧ (slotOf i = none → t.regfile = u.regfile) := by
  obtain ⟨u, r, hu, rfl | ⟨k, hk, rfl⟩⟩ := h
  · exact ⟨u, hu, ⟨u.regfile.address, r, rfl⟩, fun _ => rfl⟩
  · exact ⟨u, hu, ⟨_, r, rfl⟩, fun hn => by rw [hk] at hn; cases hn⟩

/-! ### The obligations -/

/-- Settles O55: only the effects of a decode tick and of the resets name the ring or set or clear `valid`. -/
theorem ringAndValidWriters : Obligations.RingAndValidWriters := by
  intro i s t h
  obtain ⟨u, hu, ⟨k, r, rfl⟩, -⟩ := (exec_completed h).frame
  exact ⟨hu.ring_writers, hu.valid_rises, hu.valid_falls⟩

/-- Settles O56: a window access has a slot; of the other effects MODEWL and the resets name the latch, the start raises
`active` and the last word raises `completed`. -/
theorem latchAndTransferMovers : Obligations.LatchAndTransferMovers := by
  intro i s t h
  obtain ⟨u, hu, ⟨k, r, rfl⟩, hlatch⟩ := (exec_completed h).frame
  refine ⟨fun hne => ?_, hu.active_rises, hu.completed_rises⟩
  cases hi : slotOf i with
  | some j => exact .inl ⟨j, rfl⟩
  | none =>
    rw [hlatch hi] at hne
    exact .inr (hu.latch_movers hne)

/-- Settles O57: the events added are `dma()`'s port writes, a data DECODE's image reads, and calls that are neither. -/
theorem externalPortUsers : Obligations.ExternalPortUsers := by
  intro i s t h
  obtain ⟨u, hu, ⟨k, r, rfl⟩, -⟩ := (exec_completed h).frame
  obtain ⟨es, he, hes⟩ := hu.events
  simp only [State.respond_events, State.setLatch_events, he, List.filter_append, List.append_right_eq_self,
    List.filter_eq_nil_iff]
  exact ⟨⟨es, rfl⟩, fun hi e hm hw => hi ((hes e hm).1 hw), fun hi e hm hr =>
    have ⟨lba, track, hdata⟩ := (hes e hm).2 hr
    hi lba track hdata⟩

end Sys2Proof.Machine

/-! SUPPORT. The decode tick in its exact form: the header latched, what steps 5 to 8 commit to the ring, and when the
image read is short. -/

namespace Sys2Proof.Machine

/-! ### Steps 2 to 4: the header -/

/-- The header, `valid`, the pending interrupt and the poll's one port call, as one update. -/
theorem latchHeader_update (n : Nat) (kind : TrackKind) (s : State) :
    latchHeader n kind s = { s with
      header := headerFor n kind,
      decoder := { s.decoder with valid := true },
      irq := { s.irq with
        decoder := { s.irq.decoder with pending := true },
        line := s.irq.decoder.enable || (s.irq.transfer.enable && s.irq.transfer.pending) },
      events := s.events ++
        [lineEvent (s.irq.decoder.enable || (s.irq.transfer.enable && s.irq.transfer.pending))] } := by
  rw [← Bool.and_true s.irq.decoder.enable]
  rfl

@[simp] theorem latchHeader_control (n : Nat) (kind : TrackKind) (s : State) :
    (latchHeader n kind s).control = s.control := rfl

@[simp] theorem latchHeader_disc (n : Nat) (kind : TrackKind) (s : State) : (latchHeader n kind s).disc = s.disc := rfl

/-! ### Steps 5 to 8 by their guards -/

theorem commitSector_without_request {s : State} (hw : s.control.writeRequest = false) (lba : Int) (track : Nat) :
    commitSector lba track s = finish s := by
  simp [commitSector, hw]

@[simp] theorem commitHeader_header (s : State) : (commitHeader s).header = s.header := by rw [commitHeader_eq]

@[simp] theorem commitHeader_disc (s : State) : (commitHeader s).disc = s.disc := by rw [commitHeader_eq]

/-- A priming tick and a tick of an audio track commit the header only (R134, R139). -/
theorem commitSector_header_only {s : State} {lba : Int} (hw : s.control.writeRequest = true)
    (h : lba < 0 ∨ s.header.mode ≠ 0x01) (track : Nat) : commitSector lba track s = finish (commitHeader s) := by
  simp only [commitSector, hw, if_true, commitHeader_header]
  split
  · rfl
  · rw [if_neg (h.resolve_left ‹_›)]

theorem commitSector_payload {s : State} {lba : Int} (hw : s.control.writeRequest = true) (hl : 0 ≤ lba)
    (hm : s.header.mode = 0x01) (track : Nat) : commitSector lba track s = copyPayload lba track (commitHeader s) := by
  simp only [commitSector, hw, if_true, commitHeader_header, hm]
  exact if_neg (by omega)

theorem copyPayload_of_none {s : State} {lba : Int} {track : Nat} (h : readPayload lba track s = none) :
    copyPayload lba track s = .refused .shortImageRead := by
  rw [copyPayload, h]

theorem copyPayload_of_some {s t : State} {lba : Int} {track : Nat} {bs : List Byte}
    (h : readPayload lba track s = some (bs, t)) :
    copyPayload lba track s = finish (t.writeRing (headerAddress t + 4) bs) := by
  rw [copyPayload, h]

/-- Steps 5 to 8 complete, or are refused for a short image read of a wanted payload. -/
theorem commitSector_ends (lba : Int) (track : Nat) (s : State) :
    (∃ t, commitSector lba track s = .next t) ∨
      (commitSector lba track s = .refused .shortImageRead ∧ s.control.writeRequest = true ∧ 0 ≤ lba ∧
        s.header.mode = 0x01 ∧ readPayload lba track (commitHeader s) = none) := by
  cases hw : s.control.writeRequest with
  | false => exact .inl ⟨_, commitSector_without_request hw lba track⟩
  | true =>
    by_cases h : lba < 0 ∨ s.header.mode ≠ 0x01
    · exact .inl ⟨_, commitSector_header_only hw h track⟩
    · simp only [not_or, not_lt, not_not] at h
      rw [commitSector_payload hw h.1 h.2]
      cases hr : readPayload lba track (commitHeader s) with
      | none => exact .inr ⟨copyPayload_of_none hr, rfl, h.1, h.2, rfl⟩
      | some r => exact .inl ⟨_, copyPayload_of_some hr⟩

/-! ### Reading the payload -/

/-- The first image byte of a sector's payload (R136, R137). -/
def payloadStart (tr : ImageTrack) (lba : Nat) : Nat :=
  if tr.layout = .iso then lba * 2048 else lba * tr.sectorSize + 16

/-- What the payload path of a BIN/CUE sector records: the sync check, the header check, the payload read (R137). -/
def binCueEvents (tr : ImageTrack) (lba track start : Nat) (h : Header) : List Event :=
  [.imageRead track ((start - 16 : Nat) : Int) 12] ++
    (if (tr.image.drop (start - 16)).take 12 = syncPattern then [] else [.diag .syncMismatch lba]) ++
    [.imageRead track ((start - 4 : Nat) : Int) 4] ++
    (if (tr.image.drop (start - 4)).take 4 = [h.minute, h.second, h.frame, 0x01] then []
      else [.diag .headerMismatch lba]) ++
    [.imageRead track (start : Int) 2048]

theorem readPayload_iso {s : State} {lba track : Nat} {tr : ImageTrack} (hd : s.disc[track]? = some tr)
    (hlay : tr.layout = .iso) (h : lba * 2048 + 2048 ≤ tr.image.length) :
    readPayload lba track s = some ((tr.image.drop (lba * 2048)).take 2048,
      { s with events := s.events ++ [.imageRead track ((lba : Int) * 2048) 2048] }) := by
  simp only [readPayload, hd, hlay]
  exact imageRead_of_track hd h

theorem readPayload_binCue {s : State} {lba track start : Nat} {tr : ImageTrack} (hd : s.disc[track]? = some tr)
    (hlay : tr.layout = .binCue) (hstart : start = lba * tr.sectorSize + 16) (h : start + 2048 ≤ tr.image.length) :
    readPayload lba track s = some ((tr.image.drop start).take 2048,
      { s with events := s.events ++ binCueEvents tr lba track start s.header }) := by
  have h0 : (lba : Int) * tr.sectorSize + 16 = (start : Int) := by rw [hstart]; push_cast; rfl
  have h16 : (start : Int) - 16 = ((start - 16 : Nat) : Int) := by omega
  have h4 : (start : Int) - 4 = ((start - 4 : Nat) : Int) := by omega
  have hsync : syncPattern.length = 12 := rfl
  simp only [readPayload, hd, hlay, readBinCue, h0, h16, h4]
  rw [checkImage_of_track hd _ (by rw [hsync]; omega)]
  dsimp only
  rw [checkImage_of_track (tr := tr) (by exact hd) _ (by simp only [List.length_cons, List.length_nil]; omega)]
  dsimp only
  rw [imageRead_of_track (tr := tr) (by exact hd) (by simp only [payloadSize]; omega)]
  simp only [binCueEvents, State.emit, List.append_assoc]
  rfl

/-- A payload that is not read has no track, or an image that ends before it does (R138). -/
theorem image_short_of_readPayload_none {s : State} {lba track : Nat} {tr : ImageTrack}
    (hd : s.disc[track]? = some tr) (h : readPayload lba track s = none) :
    tr.image.length < payloadStart tr lba + 2048 := by
  by_contra hlen
  unfold payloadStart at hlen
  cases hlay : tr.layout with
  | iso =>
    rw [readPayload_iso hd hlay (by rw [if_pos hlay] at hlen; omega)] at h
    cases h
  | binCue =>
    rw [readPayload_binCue hd hlay rfl (by rw [if_neg (by rw [hlay]; exact nofun)] at hlen; omega)] at h
    cases h

theorem readPayload_none_of_missing {s : State} {track : Nat} (hd : s.disc[track]? = none) (lba : Int) :
    readPayload lba track s = none := by
  simp only [readPayload, hd]

theorem readPayload_none_of_short {s : State} {lba track : Nat} {tr : ImageTrack} (hd : s.disc[track]? = some tr)
    (h : tr.image.length < payloadStart tr lba + 2048) : readPayload lba track s = none := by
  unfold payloadStart at h
  cases hlay : tr.layout with
  | iso =>
    rw [if_pos hlay] at h
    simp only [readPayload, hd, hlay]
    exact imageRead_of_short hd h (by decide)
  | binCue =>
    rw [if_neg (by rw [hlay]; exact nofun)] at h
    have h0 : (lba : Int) * tr.sectorSize + 16 = ((lba * tr.sectorSize + 16 : Nat) : Int) := by push_cast; rfl
    simp only [readPayload, hd, hlay, readBinCue, h0]
    split
    · rfl
    · rename_i s1 h1
      split
      · rfl
      · rename_i s2 h2
        obtain ⟨es1, hs1, -⟩ := checkImage_some h1
        obtain ⟨es2, hs2, -⟩ := checkImage_some h2
        have hd2 : s2.disc[track]? = some tr := by rw [hs2, hs1]; exact hd
        exact imageRead_of_short hd2 h (by decide)

/-! ### The committed ring -/

theorem advanceSector_eq (w : Word) : advanceSector w = BitVec.ofNat 16 (w.toNat + 2352) := by
  apply BitVec.eq_of_toNat_eq
  simp [advanceSector, sectorAdvance, BitVec.toNat_add]

/-- A write of bytes read back by how far an address lies past any place `q` that wraps to its start (R55). -/
theorem read_writeBytes_ringDistance (m : Memory) {p q a : Nat} {bs : List Byte} (hl : bs.length ≤ 16384)
    (ha : a < 16384) (hp : p % 16384 = q % 16384) :
    Memory.read (Memory.writeBytes p bs m) a =
      if ringDistance q a < bs.length then bs.getD (ringDistance q a) 0 else Memory.read m a := by
  rw [Memory.read_writeBytes m hl ha, ringDistance, ← hp]
  rfl

/-- The ring after step 6 of a tick whose counter was `p`: four header bytes at the new pointer (R133). -/
def ringAfterHeader (p : Word) (h : Header) (m : Memory) : Memory :=
  Memory.writeBytes ((advanceSector p).toNat % ringSize) (headerBytes h) m

theorem advanceSector_mod (p : Word) : (advanceSector p).toNat % ringSize % 16384 = (p.toNat + 2352) % 16384 := by
  rw [advanceSector_eq, BitVec.toNat_ofNat, ringSize]
  omega

theorem read_ringAfterHeader (p : Word) (h : Header) (m : Memory) {a : Nat} (ha : a < 16384) :
    Memory.read (ringAfterHeader p h m) a =
      if ringDistance (p.toNat + 2352) a < 4
      then [h.minute, h.second, h.frame, h.mode].getD (ringDistance (p.toNat + 2352) a) 0 else Memory.read m a :=
  read_writeBytes_ringDistance m (bs := headerBytes h) (by decide : 4 ≤ 16384) ha (advanceSector_mod p)

/-- The ring after step 8: the 2048 image bytes from `start` on follow the header (R135). -/
def ringAfterSector (p : Word) (h : Header) (image : List Byte) (start : Nat) (m : Memory) : Memory :=
  Memory.writeBytes ((advanceSector p).toNat % ringSize + 4) ((image.drop start).take 2048) (ringAfterHeader p h m)

theorem read_ringAfterSector (p : Word) (h : Header) {image : List Byte} {start : Nat} (m : Memory) {a : Nat}
    (ha : a < 16384) (himage : start + 2048 ≤ image.length) :
    Memory.read (ringAfterSector p h image start m) a =
      if ringDistance (p.toNat + 2352) a < 4
      then [h.minute, h.second, h.frame, h.mode].getD (ringDistance (p.toNat + 2352) a) 0
      else if ringDistance (p.toNat + 2352) a < 2052
      then image.getD (start + (ringDistance (p.toNat + 2352) a - 4)) 0
      else Memory.read m a := by
  have hlen : ((image.drop start).take 2048).length = 2048 := by
    rw [List.length_take, List.length_drop]
    omega
  have hp := advanceSector_mod p
  have hdist : ringDistance (p.toNat + 2352 + 4) a = (ringDistance (p.toNat + 2352) a + 16384 - 4) % 16384 := by
    unfold ringDistance
    omega
  have hd : ringDistance (p.toNat + 2352) a < 16384 := Nat.mod_lt _ (by decide)
  rw [ringAfterSector, read_writeBytes_ringDistance (q := p.toNat + 2352 + 4) _ (by omega) ha (by omega), hlen,
    read_ringAfterHeader p h m ha, hdist]
  generalize ringDistance (p.toNat + 2352) a = d at hd ⊢
  by_cases h4 : d < 4
  · rw [if_neg (by omega), if_pos h4, if_pos h4]
  · have hd4 : (d + 16384 - 4) % 16384 = d - 4 := by omega
    rw [if_neg h4, if_neg h4, hd4]
    by_cases h2052 : d < 2052
    · rw [if_pos (by omega), if_pos h2052]
      simp only [List.getD_eq_getElem?_getD]
      rw [List.getElem?_take_of_lt (by omega), List.getElem?_drop]
    · rw [if_neg (by omega), if_neg h2052]

/-- Step 6 right after the header is latched, in the words of R133. -/
theorem commitHeader_latchHeader (n : Nat) (kind : TrackKind) (s : State) :
    commitHeader (latchHeader n kind s) = { latchHeader n kind s with
      transfer := { s.transfer with
        pointer := BitVec.ofNat 16 (s.transfer.pointer.toNat + 2352),
        target := BitVec.ofNat 16 (s.transfer.target.toNat + 2352) },
      ring := ringAfterHeader s.transfer.pointer (headerFor n kind) s.ring } := by
  rw [← advanceSector_eq, ← advanceSector_eq, commitHeader_eq]
  rfl

/-- A payload that is read goes after the header; `es` is what the reading recorded (R135). -/
theorem copyPayload_committed {s : State} {n lba track start : Nat} {tr : ImageTrack} {es : List Event}
    (hread : readPayload lba track (commitHeader (latchHeader n .data s)) =
      some ((tr.image.drop start).take 2048, { commitHeader (latchHeader n .data s) with
        events := (commitHeader (latchHeader n .data s)).events ++ es })) :
    copyPayload lba track (commitHeader (latchHeader n .data s)) = .next { latchHeader n .data s with
      transfer := { s.transfer with
        pointer := BitVec.ofNat 16 (s.transfer.pointer.toNat + 2352),
        target := BitVec.ofNat 16 (s.transfer.target.toNat + 2352) },
      ring := ringAfterSector s.transfer.pointer (headerFor n .data) tr.image start s.ring,
      events := (latchHeader n .data s).events ++ es, response := .none } := by
  rw [copyPayload_of_some hread, commitHeader_latchHeader, finish, ringAfterSector, ← advanceSector_eq,
    ← advanceSector_eq]
  rfl

/-! ### A whole tick inside the domain -/

theorem headerFor_spells_lba {lba : Int} (h1 : -150 ≤ lba) (h2 : lba ≤ 449849) (kind : TrackKind) :
    (headerFor (lba + 150).toNat kind).spells (lba + 150) kind := by
  have h := headerFor_spells (n := (lba + 150).toNat) (by omega) kind
  rwa [Int.toNat_of_nonneg (by omega)] at h

/-- A data tick with a write requested, at a sector that is no priming sector, goes on to step 8. -/
theorem execDecode_data {s : State} {lba : Nat} (he : s.decoder.enable = true) (h : lba ≤ 449849)
    (hw : s.control.writeRequest = true) (track : Nat) :
    execDecode lba .data track s =
      copyPayload lba track (commitHeader (latchHeader ((lba : Int) + 150).toNat .data s)) := by
  rw [execDecode_inside he (by omega) (by omega),
    commitSector_payload (by rw [latchHeader_control, hw]) (by omega) (by rw [latchHeader_header, headerFor_mode_data])]

/-- The address `i` past the counter `q`, cut to 16 bits and wrapped to the ring, lies `i` past `q`. -/
theorem ringDistance_add (q : Nat) {i : Nat} (hi : i < 16384) :
    ringDistance q (((BitVec.ofNat 16 q).toNat + i) % 16384) = i := by
  rw [ringDistance, BitVec.toNat_ofNat]
  omega

/-! ### The obligations -/

/-- Settles O28: inside the domain a tick completes or is refused for a short read, never for its timecode. -/
theorem decodeGateAndDomain : Obligations.DecodeGateAndDomain := by
  intro s lba kind track
  refine ⟨fun he => execDecode_of_disabled he lba kind track, fun he => ⟨fun h => ?_, fun h => ?_⟩⟩
  · by_contra hin
    have hdec := execDecode_inside he (lba := lba) (by omega) (by omega) kind track
    obtain ⟨t, ht⟩ | ⟨hr, -⟩ := commitSector_ends lba track (latchHeader (lba + 150).toNat kind s)
    · cases h.symm.trans (hdec.trans ht)
    · cases h.symm.trans (hdec.trans hr)
  · exact execDecode_outside he h kind track

/-- Settles O29: without a write request steps 5 to 8 do nothing. -/
theorem decodeHeaderOnly : Obligations.DecodeHeaderOnly := by
  intro s lba kind track he h1 h2 hw
  refine ⟨_, headerFor_spells_lba h1 h2 kind, ?_⟩
  calc execDecode lba kind track s
    _ = commitSector lba track (latchHeader (lba + 150).toNat kind s) := execDecode_inside he h1 h2 kind track
    _ = finish (latchHeader (lba + 150).toNat kind s) :=
        commitSector_without_request (by rw [latchHeader_control, hw]) lba track
    _ = _ := by rw [latchHeader_update]; rfl

/-- Settles O30: of steps 5 to 8 only step 6 runs, and it writes four bytes at the new pointer. -/
theorem decodeCommitsHeader : Obligations.DecodeCommitsHeader := by
  intro s lba kind track he h1 h2 hw hkind
  have hguard : lba < 0 ∨ (latchHeader (lba + 150).toNat kind s).header.mode ≠ 0x01 := by
    refine hkind.imp_right ?_
    rintro rfl
    rw [latchHeader_header, headerFor_mode_audio]
    decide
  refine ⟨headerFor (lba + 150).toNat kind,
    ringAfterHeader s.transfer.pointer (headerFor (lba + 150).toNat kind) s.ring,
    headerFor_spells_lba h1 h2 kind, ?_, fun a ha => read_ringAfterHeader s.transfer.pointer _ s.ring ha⟩
  calc execDecode lba kind track s
    _ = commitSector lba track (latchHeader (lba + 150).toNat kind s) := execDecode_inside he h1 h2 kind track
    _ = finish (commitHeader (latchHeader (lba + 150).toNat kind s)) :=
        commitSector_header_only (by rw [latchHeader_control, hw]) hguard track
    _ = _ := by rw [commitHeader_latchHeader, latchHeader_update]; rfl

/-- Settles O31: the committed header tick of O30, read at the new pointer and past it. -/
theorem audioTickKeepsPayloadArea : Obligations.AudioTickKeepsPayloadArea := by
  intro s lba track he h1 h2 hw
  obtain ⟨h, m, ⟨-, -, -, -, -, -, hmode⟩, hexec, hread⟩ :=
    decodeCommitsHeader s lba .audio track he h1 h2 hw (.inr rfl)
  have hadd (w : Word) : BitVec.ofNat 16 (w.toNat + 2352) = w + 2352 := by
    apply BitVec.eq_of_toNat_eq
    simp [BitVec.toNat_add]
  have hbyte (i : Nat) (hi : i < 16384) :
      Memory.read m (((s.transfer.pointer + 2352).toNat + i) % 16384) =
        if i < 4 then [h.minute, h.second, h.frame, h.mode].getD i 0
        else s.ringByte ((s.transfer.pointer + 2352).toNat + i) := by
    rw [hread _ (Nat.mod_lt _ (by decide)), ← hadd, ringDistance_add _ hi]
    rfl
  simp only [hadd] at hexec
  generalize s.transfer.pointer + 2352 = p at hexec hbyte
  refine ⟨_, hexec, rfl, rfl, hbyte 0 (by decide), hbyte 1 (by decide), hbyte 2 (by decide),
    (hbyte 3 (by decide)).trans hmode, fun i hi => ?_, ?_⟩
  · have hpast := hbyte (4 + i) (by omega)
    rw [if_neg (by omega), ← Nat.add_assoc] at hpast
    exact hpast
  · obtain ⟨-, -, hreads⟩ := externalPortUsers _ _ _ hexec
    exact hreads fun _ _ h => by cases h

/-- Settles O33: the payload is one read of the image, at the sector's 2048 bytes. -/
theorem decodeIsoSector : Obligations.DecodeIsoSector := by
  intro s lba track tr he h2 hw hd hlay himage
  have hread := readPayload_iso (s := commitHeader (latchHeader ((lba : Int) + 150).toNat .data s))
    (by simpa using hd) hlay himage
  refine ⟨headerFor ((lba : Int) + 150).toNat .data,
    ringAfterSector s.transfer.pointer (headerFor ((lba : Int) + 150).toNat .data) tr.image (lba * 2048) s.ring,
    headerFor_spells_lba (by omega) (by omega) .data, ?_, fun a ha => read_ringAfterSector _ _ s.ring ha himage⟩
  calc execDecode lba .data track s
    _ = copyPayload lba track (commitHeader (latchHeader ((lba : Int) + 150).toNat .data s)) :=
        execDecode_data he h2 hw track
    _ = _ := copyPayload_committed hread
    _ = _ := by simp only [latchHeader_update, List.append_assoc, List.cons_append, List.nil_append]

/-- Settles O34: the payload path makes its three reads, with a diagnostic after each check that differs. -/
theorem decodeBinCueSector : Obligations.DecodeBinCueSector := by
  intro s lba track tr start he h2 hw hd hlay hstart himage
  have hread := readPayload_binCue (s := commitHeader (latchHeader ((lba : Int) + 150).toNat .data s))
    (by simpa using hd) hlay hstart himage
  refine ⟨headerFor ((lba : Int) + 150).toNat .data,
    ringAfterSector s.transfer.pointer (headerFor ((lba : Int) + 150).toNat .data) tr.image start s.ring,
    headerFor_spells_lba (by omega) (by omega) .data, ?_, fun a ha => read_ringAfterSector _ _ s.ring ha himage⟩
  calc execDecode lba .data track s
    _ = copyPayload lba track (commitHeader (latchHeader ((lba : Int) + 150).toNat .data s)) :=
        execDecode_data he h2 hw track
    _ = _ := copyPayload_committed hread
    _ = _ := by
        simp only [commitHeader_header, latchHeader_header]
        simp only [latchHeader_update, binCueEvents, syncPattern, List.append_assoc, List.cons_append, List.nil_append]
        rfl

/-- Settles O35: a missing track and a short image leave step 8 without a payload. -/
theorem shortImageReadRefused : Obligations.ShortImageReadRefused := by
  intro s lba track he h2 hw hshort
  refine (execDecode_data he h2 hw track).trans (copyPayload_of_none ?_)
  obtain hd | ⟨tr, hd, hlen⟩ := hshort
  · exact readPayload_none_of_missing (by simpa using hd) lba
  · exact readPayload_none_of_short (by simpa using hd) hlen

end Sys2Proof.Machine

/-! SUPPORT. How a transaction ends: each window access by its slot and the sub-header mode, DECODE by its domain and
the image, and every other transaction with a next state. -/

namespace Sys2Proof.Machine

/-! ### Window accesses -/

/-- A window read completes at its slot and is refused elsewhere. -/
theorem windowRead_ends {i : Instr} {k : Slot} (hi : slotOf i = some k) (v : State → Byte) (e : State → State)
    (s : State) : (∃ t, windowRead k v e s = .next t) ∨
      (windowRead k v e s = .refused .unknownTransaction ∧ ∃ k, slotOf i = some k ∧ s.regfile.address ≠ k) := by
  by_cases h : s.regfile.address = k
  · exact .inl ⟨_, windowRead_of_eq h v e⟩
  · exact .inr ⟨atSlot_of_ne h _, k, hi, h⟩

theorem windowWrite_ends {i : Instr} {k : Slot} (hi : slotOf i = some k) (b : State → State) (s : State) :
    (∃ t, windowWrite k b s = .next t) ∨
      (windowWrite k b s = .refused .unknownTransaction ∧ ∃ k, slotOf i = some k ∧ s.regfile.address ≠ k) := by
  by_cases h : s.regfile.address = k
  · exact .inl ⟨_, windowWrite_of_eq h b⟩
  · exact .inr ⟨atSlot_of_ne h _, k, hi, h⟩

theorem headRead_of_ne {k : Slot} {s : State} (h : s.regfile.address ≠ k) (f : Header → Byte) :
    headRead k f s = .refused .unknownTransaction := by
  unfold headRead
  split
  · exact atSlot_of_ne h _
  · exact atSlot_of_ne h _

theorem headRead_of_subheader {k : Slot} {s : State} (h : s.regfile.address = k) (hh : s.control.head = true)
    (f : Header → Byte) : headRead k f s = .refused .unsupportedSubheaderRead := by
  rw [headRead, if_pos hh, atSlot_of_eq h]

theorem headRead_of_header {k : Slot} {s : State} (h : s.regfile.address = k) (hh : s.control.head = false)
    (f : Header → Byte) : headRead k f s = .next ((s.setLatch (nextSlot k)).respond (.u8 (f s.header))) :=
  headRead_next.2 ⟨hh, h, rfl⟩

theorem headRead_ends {i : Instr} {k : Slot} (hi : slotOf i = some k) (f : Header → Byte) (s : State) :
    (∃ t, headRead k f s = .next t) ∨
      (headRead k f s = .refused .unknownTransaction ∧ ∃ k, slotOf i = some k ∧ s.regfile.address ≠ k) ∨
      (headRead k f s = .refused .unsupportedSubheaderRead ∧ s.control.head = true) := by
  by_cases h : s.regfile.address = k
  · cases hh : s.control.head with
    | false => exact .inl ⟨_, headRead_of_header h hh f⟩
    | true => exact .inr (.inr ⟨headRead_of_subheader h hh f, rfl⟩)
  · exact .inr (.inl ⟨headRead_of_ne h f, k, hi, h⟩)

/-! ### DECODE -/

/-- A DECODE completes, or is refused outside its timecode's domain or for a payload that is not there (R128, R138). -/
theorem execDecode_ends (lba : Int) (kind : TrackKind) (track : Nat) (s : State) :
    (∃ t, execDecode lba kind track s = .next t) ∨
      (execDecode lba kind track s = .refused .timecodeOutOfRange ∧ s.decoder.enable = true ∧
        (lba + 150 < 0 ∨ 450000 ≤ lba + 150)) ∨
      (execDecode lba kind track s = .refused .shortImageRead ∧ kind = .data ∧ 0 ≤ lba ∧ s.decoder.enable = true ∧
        s.control.writeRequest = true ∧ ∀ tr, s.disc[track]? = some tr → (tr.image.length : Int) <
          (if tr.layout = .iso then lba * 2048 else lba * tr.sectorSize + 16) + 2048) := by
  cases he : s.decoder.enable with
  | false => exact .inl ⟨_, execDecode_of_disabled he lba kind track⟩
  | true =>
    by_cases hin : lba < -150 ∨ 449849 < lba
    · exact .inr (.inl ⟨execDecode_outside he hin kind track, rfl, by omega⟩)
    rw [execDecode_inside he (by omega) (by omega)]
    refine (commitSector_ends lba track _).imp_right fun ⟨hr, hw, hl, hm, hnone⟩ => .inr ⟨hr, ?_, hl, rfl, hw, ?_⟩
    · cases kind with
      | audio => exact absurd hm (by rw [latchHeader_header, headerFor_mode_audio]; decide)
      | data => rfl
    · intro tr hd
      obtain ⟨n, rfl⟩ := Int.eq_ofNat_of_zero_le hl
      have hlen := image_short_of_readPayload_none (s := commitHeader _) (by simpa using hd) hnone
      unfold payloadStart at hlen
      split at hlen
      · rw [if_pos ‹_›]
        omega
      · rw [if_neg ‹_›]
        omega

/-! ### The obligations -/

/-- Settles O8: each of the three window operations checks the latch first. -/
theorem wrongSlotRefused : Obligations.WrongSlotRefused := by
  intro i k s hi hne
  obtain ⟨v, e, hx⟩ | ⟨f, hx⟩ | ⟨b, hx⟩ := exec_window_cases hi <;> rw [hx]
  · exact atSlot_of_ne hne _
  · exact headRead_of_ne hne f
  · exact atSlot_of_ne hne _

/-- Settles O54: by the shared operation each transaction is; only window accesses and DECODE can be refused. -/
theorem transactionOutcomes : Obligations.TransactionOutcomes := by
  intro i s
  unfold exec
  cases i with
  | rdComin | rdIfstat | rdDbcl | rdDbch | rdPtl | rdPth | rdWal | rdWah | rdStat0 | rdStat1 | rdStat2 | rdStat3 =>
    exact (windowRead_ends rfl _ _ s).imp_right .inl
  | rdHead0 | rdHead1 | rdHead2 | rdHead3 =>
    exact (headRead_ends rfl _ s).imp_right (.imp_right fun ⟨hr, hh⟩ => .inl ⟨hr, hh, by simp⟩)
  | wrSbout | wrIfctrl | wrDbcl | wrDbch | wrDacl | wrDach | wrDtrg | wrDtack | wrWal | wrWah | wrCtrl0 | wrCtrl1
  | wrPtl | wrPth | wrCtrl2 | wrReset => exact (windowWrite_ends rfl _ s).imp_right .inl
  | decodeSector lba kind track =>
    refine (execDecode_ends lba kind track s).imp_right fun h => .inr (.inr (h.imp ?_ ?_))
    · exact fun ⟨hr, he, hn⟩ => ⟨hr, lba, kind, track, rfl, he, hn⟩
    · rintro ⟨hr, rfl, hl, he, hw, htr⟩
      exact ⟨hr, lba, track, rfl, hl, he, hw, htr⟩
  | _ => exact .inl ⟨_, rfl⟩

end Sys2Proof.Machine

/-! SUPPORT. Noninterference: every operation gives the same visible state whether or not the hidden state is first set
to its fixed values (R46). -/

namespace Sys2Proof.Machine

/-- The visible part of what `f` leaves does not depend on the hidden state. -/
def Blind (f : State → State) : Prop := ∀ s, (f s.visible).visible = (f s).visible

@[simp] theorem visible_visible (s : State) : s.visible.visible = s.visible := rfl

@[simp] theorem visible_header (s : State) : s.visible.header = s.header := rfl

theorem blind_of_commutes {f : State → State} (h : ∀ s, f s.visible = (f s).visible) : Blind f := fun s => by
  rw [h, visible_visible]

/-! ### Shared operations -/

/-- The latch and the answer are visible, so writing them commutes with hiding. -/
theorem visible_setLatch_respond (s : State) (k : Slot) (r : Response) :
    ((s.setLatch k).respond r).visible = (s.visible.setLatch k).respond r := rfl

theorem visible_respond (s : State) (r : Response) : (s.respond r).visible = s.visible.respond r := rfl

theorem visible_atSlot (k : Slot) {s : State} {r r' : Result} (h : visibleResult r' = visibleResult r) :
    visibleResult (atSlot k s.visible r') = visibleResult (atSlot k s r) := by
  by_cases hk : s.regfile.address = k
  · rw [atSlot_of_eq hk, atSlot_of_eq (s := s.visible) hk, h]
  · rw [atSlot_of_ne hk, atSlot_of_ne (s := s.visible) hk]

theorem visible_windowRead (k : Slot) {v : State → Byte} {e : State → State} (hv : ∀ s, v s.visible = v s)
    (he : Blind e) (s : State) :
    visibleResult (windowRead k v e s.visible) = visibleResult (windowRead k v e s) := by
  refine visible_atSlot k ?_
  simp only [visibleResult, visible_setLatch_respond, he s, hv s]

theorem visible_windowWrite (k : Slot) {b : State → State} (hb : Blind b) (s : State) :
    visibleResult (windowWrite k b s.visible) = visibleResult (windowWrite k b s) := by
  refine visible_atSlot k ?_
  simp only [visibleResult, visible_setLatch_respond, hb s]

theorem visible_headRead (k : Slot) (f : Header → Byte) (s : State) :
    visibleResult (headRead k f s.visible) = visibleResult (headRead k f s) := by
  have hhead : s.visible.control.head = s.control.head := rfl
  unfold headRead
  rw [hhead]
  split
  · exact visible_atSlot k rfl
  · exact visible_windowRead k (fun _ => rfl) (fun _ => rfl) s

theorem visible_finish {f : State → State} (hf : Blind f) (s : State) :
    visibleResult (finish (f s.visible)) = visibleResult (finish (f s)) := by
  simp only [finish, visibleResult, visible_respond, hf s]

theorem visible_finish_self (s : State) : visibleResult (finish s.visible) = visibleResult (finish s) := rfl

/-! ### The bodies -/

/-- An active transfer to an external memory writes its word and moves on (R147). -/
theorem dmaWord_of_moving {s : State} (h : (s.transfer.active && isDmaDestination s.transfer.destination) = true) :
    dmaWord s = consume ((portWrite s.transfer.destination s.transfer.address (transferWord s) s).setTransfer
      { s.transfer with
        source := advanceSource s.transfer.source,
        address := s.transfer.address + addressAdvance s.transfer.destination }) := by
  obtain ⟨es, he, -⟩ := portWrite_eq s.transfer.destination s.transfer.address (transferWord s) s
  simp only [dmaWord, h, if_true, he, publish_eq]

theorem visible_startTransfer (s : State) : startTransfer s.visible = (startTransfer s).visible := by
  cases h : s.transfer.enable with
  | false => rw [startTransfer_of_disabled h, startTransfer_of_disabled (s := s.visible) h]
  | true => rw [startTransfer_of_enabled h, startTransfer_of_enabled (s := s.visible) h]; rfl

theorem blind_ifctrlBody (d : Byte) : Blind (ifctrlBody d) := fun s => by
  rw [ifctrlBody_eq, ifctrlBody_eq]
  rfl

theorem blind_resetBody : Blind fun s => driveLine (stopTransfer (resetSubstates s)) := fun s => by
  simp only [resetBody_eq]
  rfl

theorem visible_consume (s : State) : consume s.visible = (consume s).visible := by
  by_cases h : s.transfer.length.toNat ≤ 2
  · rw [consume_last (s := s) h, consume_last (s := s.visible) h]
    rfl
  · rw [consume_more (s := s) (not_le.1 h), consume_more (s := s.visible) (not_le.1 h)]
    rfl

theorem visible_hostRead (s : State) : hostRead s.visible = ((hostRead s).1, (hostRead s).2.visible) := by
  cases h : s.transfer.ready with
  | false => rw [hostRead_of_not_ready h, hostRead_of_not_ready (s := s.visible) h]
  | true =>
    rw [hostRead_of_ready h, hostRead_of_ready (s := s.visible) h, ← visible_consume]
    rfl

theorem visible_portWrite (d : BitVec 3) (a : Addr) (w : Word) (s : State) :
    portWrite d a w s.visible = (portWrite d a w s).visible := by
  unfold portWrite
  split
  · rfl
  · split <;> rfl

theorem visible_dmaWord (s : State) : dmaWord s.visible = (dmaWord s).visible := by
  cases h : s.transfer.active && isDmaDestination s.transfer.destination with
  | false => rw [dmaWord_of_idle h, dmaWord_of_idle (s := s.visible) h]
  | true =>
    rw [dmaWord_of_moving h, dmaWord_of_moving (s := s.visible) h, ← visible_consume]
    change consume ((portWrite s.transfer.destination s.transfer.address (transferWord s) s.visible).setTransfer _) = _
    rw [visible_portWrite]
    rfl

/-! ### The decode tick -/

theorem visible_imageRead (track : Nat) (offset : Int) (len : Nat) (s : State) :
    imageRead track offset len s.visible = (imageRead track offset len s).map fun r => (r.1, r.2.visible) := by
  have hdisc : s.visible.disc = s.disc := rfl
  simp only [imageRead, hdisc]
  split <;> rfl

theorem visible_checkImage (kind : DiagKind) (track : Nat) (offset : Int) (expected : List Byte) (lba : Int)
    (s : State) :
    checkImage kind track offset expected lba s.visible =
      (checkImage kind track offset expected lba s).map State.visible := by
  unfold checkImage
  rw [visible_imageRead]
  cases imageRead track offset expected.length s with
  | none => rfl
  | some r => simp only [Option.map_some]; split <;> rfl

theorem visible_readBinCue (lba : Int) (track : Nat) (sectorSize : Nat) (s : State) :
    readBinCue lba track sectorSize s.visible =
      (readBinCue lba track sectorSize s).map fun r => (r.1, r.2.visible) := by
  simp only [readBinCue, visible_checkImage, visible_header]
  cases checkImage .syncMismatch track _ syncPattern lba s with
  | none => rfl
  | some s1 =>
    simp only [Option.map_some, visible_checkImage]
    cases checkImage .headerMismatch track _ _ lba s1 with
    | none => rfl
    | some s2 => exact visible_imageRead _ _ _ s2

theorem visible_readPayload (lba : Int) (track : Nat) (s : State) :
    readPayload lba track s.visible = (readPayload lba track s).map fun r => (r.1, r.2.visible) := by
  have hdisc : s.visible.disc = s.disc := rfl
  unfold readPayload
  rw [hdisc]
  split
  · rfl
  · split
    · exact visible_imageRead _ _ _ s
    · exact visible_readBinCue _ _ _ s

theorem visible_commitHeader (s : State) : commitHeader s.visible = (commitHeader s).visible := by
  rw [commitHeader_eq, commitHeader_eq]
  rfl

theorem visible_copyPayload (lba : Int) (track : Nat) (s : State) :
    visibleResult (copyPayload lba track s.visible) = visibleResult (copyPayload lba track s) := by
  unfold copyPayload
  rw [visible_readPayload]
  cases readPayload lba track s with
  | none => rfl
  | some r => rfl

theorem visible_commitSector (lba : Int) (track : Nat) (s : State) :
    visibleResult (commitSector lba track s.visible) = visibleResult (commitSector lba track s) := by
  have hwrite : s.visible.control.writeRequest = s.control.writeRequest := rfl
  simp only [commitSector, hwrite, visible_commitHeader, visible_header]
  split
  · split
    · exact visible_finish_self _
    · split
      · exact visible_copyPayload lba track _
      · exact visible_finish_self _
  · exact visible_finish_self s

theorem visible_execDecode (lba : Int) (kind : TrackKind) (track : Nat) (s : State) :
    visibleResult (execDecode lba kind track s.visible) = visibleResult (execDecode lba kind track s) := by
  have henable : s.visible.decoder.enable = s.decoder.enable := rfl
  have hlatch (n : Nat) : latchHeader n kind s.visible = (latchHeader n kind s).visible := rfl
  simp only [execDecode, henable, hlatch]
  split
  · split
    · rfl
    · exact visible_commitSector lba track _
  · rfl

/-! ### The obligation -/

/-- Hiding first changes nothing that can be seen after. -/
theorem visible_exec (i : Instr) (s : State) : visibleResult (exec i s.visible) = visibleResult (exec i s) := by
  unfold exec
  cases i with
  | rdComin | rdIfstat | rdDbcl | rdDbch | rdPtl | rdPth | rdWal | rdWah | rdStat0 | rdStat1 | rdStat2 | rdStat3 =>
    exact visible_windowRead _ (fun _ => rfl) (fun _ => rfl) s
  | rdHead0 | rdHead1 | rdHead2 | rdHead3 => exact visible_headRead _ _ s
  | wrIfctrl d => exact visible_windowWrite 1 (blind_ifctrlBody d) s
  | wrDtrg => exact visible_windowWrite 6 (blind_of_commutes visible_startTransfer) s
  | wrSbout | wrDbcl | wrDbch | wrDacl | wrDach | wrDtack | wrWal | wrWah | wrCtrl0 | wrCtrl1 | wrPtl | wrPth
  | wrCtrl2 => exact visible_windowWrite _ (fun _ => rfl) s
  | wrReset => exact visible_windowWrite 15 blind_resetBody s
  | hostrd => simp only [execHostrd, visible_hostRead]; rfl
  | decodeSector lba kind track => exact visible_execDecode lba kind track s
  | dma => exact visible_finish (blind_of_commutes visible_dmaWord) s
  | sysReset => rw [execSysReset_eq, execSysReset_eq]; rfl
  | construct => rw [execConstruct_eq, execConstruct_eq]; rfl
  | _ => rfl

/-- Settles O58: both results are that of the common visible state. -/
theorem hiddenStateUnobservable : Obligations.HiddenStateUnobservable := by
  intro i s u h
  rw [← visible_exec i s, h, visible_exec i u]

end Sys2Proof.Machine

/-! SUPPORT. One word moved by a CDC_HOST read or a `dma()` call in its exact form, and whole transfers as that form
repeated. -/

namespace Sys2Proof.Machine

/-! ### The word moved and the counters -/

/-- The word at an address is its two bytes in big-endian order (R53). -/
theorem ringWord_eq (s : State) (a : Nat) : s.ringWord a = bigEndianWord s.ring a := by
  rw [State.ringWord, bigEndianWord, ← BitVec.setWidth_eq (_ ++ _), BitVec.setWidth_append_eq_shiftLeft_setWidth_or]
  rfl

theorem transferWord_eq (s : State) : transferWord s = bigEndianWord s.ring s.transfer.source.toNat := ringWord_eq s _

theorem length_sub_two {n : BitVec 12} (h : 2 < n.toNat) : n - 2 = BitVec.ofNat 12 (n.toNat - 2) := by
  have hn := n.isLt
  apply BitVec.eq_of_toNat_eq
  rw [BitVec.toNat_ofNat, BitVec.toNat_sub_of_le (by rw [BitVec.le_def]; exact Nat.le_of_lt h)]
  change n.toNat - 2 = _
  omega

theorem isDmaDestination_iff (d : BitVec 3) : isDmaDestination d = true ↔ d = 4 ∨ d = 5 ∨ d = 7 := by
  revert d; decide

theorem address_add_eq (a : Addr) (d : BitVec 3) :
    a + addressAdvance d = BitVec.ofNat 19 (a.toNat + if d = 4 then 4 else 2) := by
  rw [BitVec.ofNat_add, BitVec.ofNat_toNat, BitVec.setWidth_eq, addressAdvance]
  split <;> rfl

/-- `complete()` with what the poll after it finds. -/
theorem completeTransfer_update (s : State) : completeTransfer s = { s with
    transfer := { s.transfer with active := false, busy := false, ready := false, completed := true },
    irq := { s.irq with
      transfer := { s.irq.transfer with pending := true },
      line := (s.irq.decoder.enable && s.irq.decoder.pending) || s.irq.transfer.enable },
    events := s.events ++ [lineEvent ((s.irq.decoder.enable && s.irq.decoder.pending) || s.irq.transfer.enable)] } := by
  rw [← Bool.and_true s.irq.transfer.enable]
  rfl

/-- Settles O23: without `ready`, or without an active transfer to an external memory, nothing is moved. -/
theorem transferGating : Obligations.TransferGating := by
  intro s
  refine ⟨fun h => ?_, fun h => ?_⟩
  · change answer (.u16 (hostRead s).1) (hostRead s).2 = _
    rw [hostRead_of_not_ready h]
    rfl
  · change finish (dmaWord s) = _
    rw [dmaWord_of_idle]
    · rfl
    · rw [Bool.and_eq_false_iff]
      refine h.imp_right fun ⟨h4, h5, h7⟩ => ?_
      rw [Bool.eq_false_iff, ne_eq, isDmaDestination_iff]
      tauto

/-- Settles O24: the word answered is the one before the counters move. -/
theorem hostReadMovesWord : Obligations.HostReadMovesWord := by
  intro s hready
  have hexec : exec .hostrd s = answer (.u16 (hostRead s).1) (hostRead s).2 := rfl
  rw [hexec, hostRead_of_ready hready, transferWord_eq]
  refine ⟨fun h => ?_, fun h => ?_⟩
  · rw [consume_more (by exact h), ← length_sub_two h]
    rfl
  · rw [consume_last (by exact h), completeTransfer_update]
    rfl

/-- Settles O25: the port writes come first, then the counters move, then the transfer completes or goes on. -/
theorem dmaMovesWord : Obligations.DmaMovesWord := by
  intro s d w a writes hactive hd hdest hw ha hwrites
  have hmoving : (s.transfer.active && isDmaDestination s.transfer.destination) = true := by
    rw [hactive, hd, (isDmaDestination_iff d).2 hdest]
    rfl
  obtain ⟨es, hport, hes⟩ := portWrite_eq s.transfer.destination s.transfer.address (transferWord s) s
  have hexec : exec .dma s = finish (dmaWord s) := rfl
  rw [transferWord_eq, ← hw, ← ha, hd] at hes
  have hes' : es = writes := by rw [hwrites, hes, lowByte_eq_setWidth]; rfl
  rw [hexec, dmaWord_of_moving hmoving, hport, hes', address_add_eq, ← ha, hd]
  refine ⟨fun h => ?_, fun h => ?_⟩
  · rw [consume_more (by exact h), ← length_sub_two h]
    rfl
  · rw [consume_last (by exact h), completeTransfer_update]
    rfl

/-! ### Whole transfers -/

theorem repeatExec_succ {i : Instr} {s u : State} (h : exec i s = .next u) (n : Nat) :
    repeatExec i (n + 1) s = repeatExec i n u := by
  simp only [repeatExec, h]

/-- After `n` words, `source` is 2 per word on in the ring and `address` is `stride` per word on (R147, R152). -/
def Advanced (stride n : Nat) (s t : State) : Prop :=
  t.transfer.source = BitVec.ofNat 16 ((s.transfer.source.toNat + 2 * n) % 0x4000) ∧
    t.transfer.address = BitVec.ofNat 19 (s.transfer.address.toNat + stride * n)

theorem Advanced.trans {stride m n : Nat} {s u t : State} (hu : Advanced stride m s u) (ht : Advanced stride n u t) :
    Advanced stride (m + n) s t := by
  obtain ⟨hus, hua⟩ := hu
  obtain ⟨hts, hta⟩ := ht
  constructor
  · rw [hts, hus]
    congr 1
    rw [BitVec.toNat_ofNat]
    omega
  · rw [hta, hua]
    apply BitVec.eq_of_toNat_eq
    rw [BitVec.toNat_ofNat, BitVec.toNat_ofNat, BitVec.toNat_ofNat, Nat.mul_add]
    omega

/-- The transfer has completed (R144). -/
def TransferDone (t : State) : Prop :=
  t.transfer.completed = true ∧ t.transfer.active = false ∧ t.transfer.ready = false ∧ t.transfer.length = 0 ∧
    t.irq.transfer.pending = true

/-- One call of `i` moves a word of a transfer `M` that has more than a word left. -/
def MovesWord (i : Instr) (stride : Nat) (M : State → Prop) : Prop :=
  ∀ s, M s → 2 < s.transfer.length.toNat → ∃ u, exec i s = .next u ∧ M u ∧ Advanced stride 1 s u ∧
    u.transfer.length.toNat = s.transfer.length.toNat - 2 ∧ u.transfer.completed = s.transfer.completed

/-- One call of `i` moves the last word of a transfer `M` and completes it. -/
def MovesLastWord (i : Instr) (stride : Nat) (M : State → Prop) : Prop :=
  ∀ s, M s → s.transfer.length.toNat ≤ 2 → ∃ t, exec i s = .next t ∧ Advanced stride 1 s t ∧ TransferDone t

/-- A transfer of `2n` bytes, moved word by word, ends with the `n`-th call and not before. -/
theorem repeatExec_transfer {i : Instr} {stride : Nat} {M : State → Prop} (hmore : MovesWord i stride M)
    (hlast : MovesLastWord i stride M) {n : Nat} {s : State} (hn : 1 ≤ n) (hs : M s)
    (hlen : s.transfer.length.toNat = 2 * n) (hc : s.transfer.completed = false) :
    (∃ t, repeatExec i n s = .next t ∧ Advanced stride n s t ∧ TransferDone t) ∧
      ∀ k < n, ∃ u, repeatExec i k s = .next u ∧ u.transfer.completed = false := by
  induction n, hn using Nat.le_induction generalizing s with
  | base =>
    obtain ⟨t, ht, hadv, hdone⟩ := hlast s hs (by omega)
    refine ⟨⟨t, repeatExec_succ ht 0, hadv, hdone⟩, fun k hk => ⟨s, ?_, hc⟩⟩
    rw [Nat.lt_one_iff.1 hk, repeatExec]
  | succ n hn ih =>
    obtain ⟨u, hu, hMu, hadv, hlenu, hcu⟩ := hmore s hs (by omega)
    obtain ⟨⟨t, ht, hadvt, hdone⟩, hbefore⟩ := ih hMu (by omega) (hcu.trans hc)
    refine ⟨⟨t, (repeatExec_succ hu n).trans ht, Nat.add_comm 1 n ▸ hadv.trans hadvt, hdone⟩, fun k hk => ?_⟩
    cases k with
    | zero => exact ⟨s, rfl, hc⟩
    | succ k =>
      obtain ⟨v, hv, hcv⟩ := hbefore k (by omega)
      exact ⟨v, (repeatExec_succ hu k).trans hv, hcv⟩

theorem toNat_length_sub {n : BitVec 12} : (BitVec.ofNat 12 (n.toNat - 2)).toNat = n.toNat - 2 := by
  have hn := n.isLt
  rw [BitVec.toNat_ofNat]
  omega

/-- An active transfer of `dma()` with destination `d`. -/
def DmaTransfer (d : BitVec 3) (s : State) : Prop := s.transfer.active = true ∧ s.transfer.destination = d

theorem dma_movesWord {d : BitVec 3} (hd : d = 4 ∨ d = 5 ∨ d = 7) :
    MovesWord .dma (if d = 4 then 4 else 2) (DmaTransfer d) := by
  intro s ⟨hactive, hdest⟩ hlen
  obtain ⟨hmore, -⟩ := dmaMovesWord s d _ _ _ hactive hdest hd rfl rfl rfl
  exact ⟨_, hmore hlen, ⟨hactive, hdest⟩, ⟨rfl, by rw [Nat.mul_one]⟩, toNat_length_sub, rfl⟩

theorem dma_movesLastWord {d : BitVec 3} (hd : d = 4 ∨ d = 5 ∨ d = 7) :
    MovesLastWord .dma (if d = 4 then 4 else 2) (DmaTransfer d) := by
  intro s ⟨hactive, hdest⟩ hlen
  obtain ⟨-, hlast⟩ := dmaMovesWord s d _ _ _ hactive hdest hd rfl rfl rfl
  exact ⟨_, hlast hlen, ⟨rfl, by rw [Nat.mul_one]⟩, rfl, rfl, rfl, rfl, rfl⟩

theorem hostrd_movesWord : MovesWord .hostrd 0 (fun s => s.transfer.ready = true) := by
  intro s hready hlen
  obtain ⟨hmore, -⟩ := hostReadMovesWord s hready
  exact ⟨_, hmore hlen, hready, ⟨rfl, by simp⟩, toNat_length_sub, rfl⟩

theorem hostrd_movesLastWord : MovesLastWord .hostrd 0 (fun s => s.transfer.ready = true) := by
  intro s hready hlen
  obtain ⟨-, hlast⟩ := hostReadMovesWord s hready
  exact ⟨_, hlast hlen, ⟨rfl, by simp⟩, rfl, rfl, rfl, rfl, rfl⟩

/-- Settles O26: both kinds of transfer move word by word, the one by `dma()` and the other by host reads. -/
theorem transferCompletesAfterHalfLengthCalls : Obligations.TransferCompletesAfterHalfLengthCalls := by
  intro s n hn hlen hc
  refine ⟨fun hactive hdest => ?_, fun hready => ?_⟩
  · obtain ⟨⟨t, ht, ⟨hsource, haddress⟩, hcomp, hact, -, hlen0, hpend⟩, hbefore⟩ :=
      repeatExec_transfer (dma_movesWord hdest) (dma_movesLastWord hdest) hn ⟨hactive, rfl⟩ hlen hc
    exact ⟨⟨t, ht, hcomp, hact, hlen0, hpend, hsource, by rw [haddress, ite_mul]⟩, hbefore⟩
  · obtain ⟨⟨t, ht, ⟨hsource, -⟩, hcomp, -, hrdy, hlen0, hpend⟩, hbefore⟩ :=
      repeatExec_transfer hostrd_movesWord hostrd_movesLastWord hn hready hlen hc
    exact ⟨⟨t, ht, hcomp, hrdy, hlen0, hpend, hsource⟩, hbefore⟩

theorem bigEndianWord_congr {a b : Nat} (h : a % 16384 = b % 16384) (m : Memory) :
    bigEndianWord m a = bigEndianWord m b := by
  have h1 : (a + 1) % 16384 = (b + 1) % 16384 := by omega
  rw [bigEndianWord, bigEndianWord, h, h1]

/-- The port events of `n` words from `source` on, at `address`, `address + 2`, ... (R149, R152). -/
def prgWrites (m : Memory) (source address n : Nat) : List Event :=
  (List.range n).map fun k => .prgWrite (BitVec.ofNat 19 (address + 2 * k)) (bigEndianWord m (source + 2 * k))

/-- The words after the first are those of the transfer that starts with the counters moved on once. -/
theorem prgWrites_succ (m : Memory) (source : Nat) (address : Addr) (n : Nat) :
    prgWrites m source address.toNat (n + 1) = .prgWrite address (bigEndianWord m source) ::
      prgWrites m (BitVec.ofNat 16 ((source + 2) % 0x4000)).toNat (BitVec.ofNat 19 (address.toNat + 2)).toNat n := by
  rw [prgWrites, prgWrites, List.range_succ_eq_map, List.map_cons, List.map_map]
  congr 1
  · simp
  · refine List.map_congr_left fun k _ => ?_
    simp only [Function.comp, Nat.succ_eq_add_one]
    congr 1
    · apply BitVec.eq_of_toNat_eq
      simp only [BitVec.toNat_ofNat]
      omega
    · apply bigEndianWord_congr
      rw [BitVec.toNat_ofNat]
      omega

/-- One call of a program-RAM transfer that goes on: one word is written, the line and the ring stay. -/
theorem dma_programRam_more {s : State} (hs : DmaTransfer 5 s) (hlen : 2 < s.transfer.length.toNat) :
    ∃ u, exec .dma s = .next u ∧ DmaTransfer 5 u ∧ u.ring = s.ring ∧ u.irq = s.irq ∧
      u.transfer.length.toNat = s.transfer.length.toNat - 2 ∧
      ∀ n, u.events ++ prgWrites u.ring u.transfer.source.toNat u.transfer.address.toNat n =
        s.events ++ prgWrites s.ring s.transfer.source.toNat s.transfer.address.toNat (n + 1) := by
  obtain ⟨hactive, hdest⟩ := hs
  obtain ⟨hmore, -⟩ := dmaMovesWord s 5 _ _ _ hactive hdest (by decide) rfl rfl rfl
  refine ⟨_, hmore hlen, ⟨hactive, hdest⟩, rfl, rfl, toNat_length_sub, fun n => ?_⟩
  rw [prgWrites_succ, List.append_cons]
  rfl

/-- The last call of a program-RAM transfer: one word is written, then the line is driven. -/
theorem dma_programRam_last {s : State} (hs : DmaTransfer 5 s) (hlen : s.transfer.length.toNat ≤ 2) :
    ∃ t, exec .dma s = .next t ∧ t.ring = s.ring ∧
      t.events = s.events ++ prgWrites s.ring s.transfer.source.toNat s.transfer.address.toNat 1 ++
        [lineEvent ((s.irq.decoder.enable && s.irq.decoder.pending) || s.irq.transfer.enable)] := by
  obtain ⟨hactive, hdest⟩ := hs
  obtain ⟨-, hlast⟩ := dmaMovesWord s 5 _ _ _ hactive hdest (by decide) rfl rfl rfl
  refine ⟨_, hlast hlen, rfl, ?_⟩
  rw [prgWrites_succ]
  rfl

/-- Settles O27: by induction on the number of words; the first call issues the first word and leaves a transfer of the
others. -/
theorem programRamReceivesRingWords : Obligations.ProgramRamReceivesRingWords := by
  intro s n hn hlen hactive hdest
  have hs : DmaTransfer 5 s := ⟨hactive, hdest⟩
  change ∃ t, repeatExec .dma n s = .next t ∧ t.ring = s.ring ∧
    t.events = s.events ++ prgWrites s.ring s.transfer.source.toNat s.transfer.address.toNat n ++ [_]
  clear hactive hdest
  induction n, hn using Nat.le_induction generalizing s with
  | base =>
    obtain ⟨t, ht, hring, hevents⟩ := dma_programRam_last hs (by omega)
    exact ⟨t, repeatExec_succ ht 0, hring, hevents⟩
  | succ n hn ih =>
    obtain ⟨u, hu, hsu, hring, hirq, hlenu, hevents⟩ := dma_programRam_more hs (by omega)
    obtain ⟨t, ht, hringt, heventst⟩ := ih u (by omega) hsu
    refine ⟨t, (repeatExec_succ hu n).trans ht, hringt.trans hring, ?_⟩
    rw [heventst, hevents, hirq]

end Sys2Proof.Machine

/-! SUPPORT. Program text: a text access names the row of the current latch, so its slot always matches. -/

namespace Sys2Proof.Machine

/-! ### The rows of the register window -/

/-- The rows in slot order: four before the header, HEAD0 to HEAD3 at slots 4 to 7, eight after it. -/
theorem exec_readRow_cases (k : Slot) :
    (∃ v e, (∀ s, exec (readRow k) s = windowRead k v e s) ∧ ∀ s, (e s).control = s.control) ∨
      ∃ f, ∀ s, exec (readRow k) s = headRead k f s := by
  fin_cases k
  iterate 4 exact .inl ⟨_, _, fun _ => rfl, fun _ => rfl⟩
  iterate 4 exact .inr ⟨_, fun _ => rfl⟩
  iterate 8 exact .inl ⟨_, _, fun _ => rfl, fun _ => rfl⟩

theorem exec_writeRow (k : Slot) (d : Byte) : ∃ b, ∀ s, exec (writeRow k d) s = windowWrite k b s := by
  fin_cases k <;> exact ⟨_, fun _ => rfl⟩

/-! ### Text reads and writes at any latch -/

theorem performText_regrd_ne (s : State) : performText .regrd s ≠ .refused .unknownTransaction := by
  intro h
  obtain ⟨t, ht⟩ | ⟨-, k, hk, hne⟩ | ⟨hr, -⟩ | ⟨hr, -⟩ | ⟨hr, -⟩ :=
    transactionOutcomes (readRow s.regfile.address) s
  · cases h.symm.trans ht
  · rw [readRow_slot] at hk
    exact hne (Option.some.inj hk)
  · cases h.symm.trans hr
  · cases h.symm.trans hr
  · cases h.symm.trans hr

theorem performText_regwr_next (s : State) (d : Byte) : ∃ t, performText (.regwr d) s = .next t := by
  obtain ⟨b, hb⟩ := exec_writeRow s.regfile.address d
  exact ⟨_, (hb s).trans (windowWrite_of_eq rfl b)⟩

/-- In header mode a text read completes, moves the latch on and keeps the mode (R86, R93). -/
theorem performText_regrd_next {s : State} (hh : s.control.head = false) :
    ∃ t, performText .regrd s = .next t ∧ t.control = s.control ∧ t.regfile.address = nextSlot s.regfile.address := by
  obtain ⟨v, e, hx, he⟩ | ⟨f, hx⟩ := exec_readRow_cases s.regfile.address
  · exact ⟨_, (hx s).trans (windowRead_of_eq rfl v e), he s, rfl⟩
  · exact ⟨_, (hx s).trans (headRead_of_header rfl hh f), rfl, rfl⟩

theorem toNat_nextSlot {k : Slot} (h0 : k ≠ 0) (h15 : k ≠ 15) : (nextSlot k).toNat = k.toNat + 1 := by
  revert k; decide

theorem runText_cons {t : TextLine} {ts : List TextLine} {s u : State} (h : performText t s = .next u) :
    runText (t :: ts) s = runText ts u := by
  simp only [runText, h]

/-- Settles O60: by induction on the number of reads, each of which moves the latch up by one. -/
theorem textWindowAccesses : Obligations.TextWindowAccesses := by
  refine ⟨performText_regrd_ne, performText_regwr_next, fun n => ?_⟩
  induction n with
  | zero => exact fun s _ _ _ => ⟨s, rfl, rfl⟩
  | succ n ih =>
    intro s hh h0 hn
    have h15 : s.regfile.address ≠ 15 := fun h => by
      rw [h] at hn
      change 15 + (n + 1) ≤ 15 at hn
      omega
    obtain ⟨u, hu, hc, ha⟩ := performText_regrd_next hh
    have hua := toNat_nextSlot h0 h15
    rw [← ha] at hua
    obtain ⟨t, ht, hat⟩ := ih u (by rw [hc, hh]) (fun h => by rw [h] at hua; cases hua) (by omega)
    exact ⟨t, (runText_cons hu).trans ht, by omega⟩

/-! ### Pairs of accesses (R81) -/

theorem performText_selectSlot (k : Slot) (s : State) :
    performText (selectSlot k) s = .next ((s.setLatch k).respond .none) := by
  have hk : (k.zeroExtend 8).extractLsb' 0 4 = k := by
    revert k; decide
  change finish (s.setLatch ((k.zeroExtend 8).extractLsb' 0 4)) = _
  rw [hk]
  rfl

section

variable {k k' : Slot} {s : State}

/-- A text write whose row sets transfer registers changes them, the latch and the answer only. -/
theorem performText_regwr_transfer {d : Byte} {g : Transfer → Transfer}
    (hrow : ∀ s, exec (writeRow k d) s = windowWrite k (fun s => s.setTransfer (g s.transfer)) s)
    (hk : nextSlot k = k') (ha : s.regfile.address = k) :
    performText (.regwr d) s = .next { s with
      regfile := { address := k' }, transfer := g s.transfer, response := .none } := by
  subst ha
  exact (hrow s).trans (windowWrite_setTransfer_eq rfl hk)

/-- A text read whose row answers a byte of the transfer registers changes the latch and the answer only. -/
theorem performText_regrd_transfer {f : Transfer → Byte}
    (hrow : ∀ s, exec (readRow k) s = windowRead k (fun s => f s.transfer) id s)
    (hk : nextSlot k = k') (ha : s.regfile.address = k) :
    performText .regrd s = .next { s with regfile := { address := k' }, response := .u8 (f s.transfer) } := by
  subst ha
  exact (hrow s).trans (windowRead_id_eq rfl hk rfl)

theorem runText_wrPair {v : Word} {low high : Transfer → Transfer}
    (hlow : ∀ s, exec (writeRow k (lowByte v)) s = windowWrite k (fun s => s.setTransfer (low s.transfer)) s)
    (hhigh : ∀ s, exec (writeRow (k + 1) (highByte v)) s =
      windowWrite (k + 1) (fun s => s.setTransfer (high s.transfer)) s)
    (hk : nextSlot k = k + 1) (hk' : nextSlot (k + 1) = k') (s : State) :
    runText (wrPair k v) s = .next { s with
      regfile := { address := k' }, transfer := high (low s.transfer), response := .none } := by
  rw [wrPair, runText_cons (performText_selectSlot k s),
    runText_cons (performText_regwr_transfer hlow hk (by rfl)),
    runText_cons (performText_regwr_transfer hhigh hk' (by rfl))]
  rfl

theorem runText_rdReg {f : Transfer → Byte}
    (hread : ∀ s, exec (readRow k) s = windowRead k (fun s => f s.transfer) id s) (hk : nextSlot k = k') (s : State) :
    runText (rdReg k) s = .next { s with regfile := { address := k' }, response := .u8 (f s.transfer) } := by
  rw [rdReg, runText_cons (performText_selectSlot k s), runText_cons (performText_regrd_transfer hread hk (by rfl))]
  rfl

theorem runText_rdPair {f g : Transfer → Byte}
    (hlow : ∀ s, exec (readRow k) s = windowRead k (fun s => f s.transfer) id s)
    (hhigh : ∀ s, exec (readRow (k + 1)) s = windowRead (k + 1) (fun s => g s.transfer) id s)
    (hk : nextSlot k = k + 1) (hk' : nextSlot (k + 1) = k') (s : State) :
    runText (rdPair k) s = .next { s with regfile := { address := k' }, response := .u8 (g s.transfer) } := by
  rw [rdPair, runText_cons (performText_selectSlot k s), runText_cons (performText_regrd_transfer hlow hk (by rfl)),
    runText_cons (performText_regrd_transfer hhigh hk' (by rfl))]
  rfl

end

/-! ### The halves of a counter put together -/

theorem setHighByte_setLowByte (w v : Word) : setHighByte (setLowByte w (lowByte v)) (highByte v) = v := by
  rw [setHighByte, setLowByte, lowByte, BitVec.extractLsb'_append_eq_right]
  exact word_join v

theorem setLengthHigh_setLengthLow (n : BitVec 12) (v : Word) :
    setLengthHigh (setLengthLow n (lowByte v)) ((highByte v).extractLsb' 0 4) = v.setWidth 12 := by
  rw [setLengthHigh, setLengthLow, lengthLow, BitVec.extractLsb'_append_eq_right, highByte, lowByte,
    BitVec.setWidth_eq_extractLsb' (by decide)]
  have hhigh : (v.extractLsb' 8 8).extractLsb' 0 4 = v.extractLsb' 8 4 := by
    ext i hi
    simp [show i < 8 by omega]
  rw [hhigh]
  exact BitVec.extractLsb'_append_extractLsb'_eq_extractLsb' (by decide)

theorem lowByte_eq_ofNat (w : Word) : lowByte w = BitVec.ofNat 8 (w.toNat % 256) := by
  apply BitVec.eq_of_toNat_eq
  simp [lowByte]

theorem highByte_eq_ofNat (w : Word) : highByte w = BitVec.ofNat 8 (w.toNat / 256) := by
  apply BitVec.eq_of_toNat_eq
  simp [highByte, Nat.shiftRight_eq_div_pow]

theorem lengthLow_eq_ofNat (n : BitVec 12) : lengthLow n = BitVec.ofNat 8 (n.toNat % 256) := by
  apply BitVec.eq_of_toNat_eq
  simp [lengthLow]

theorem lengthHigh_eq_ofNat (n : BitVec 12) : (lengthHigh n).zeroExtend 8 = BitVec.ofNat 8 (n.toNat / 256) := by
  apply BitVec.eq_of_toNat_eq
  have h := n.isLt
  simp [lengthHigh, Nat.shiftRight_eq_div_pow]
  omega

/-- Settles O59: each pair is two window accesses at successive slots, of the two halves of one counter. -/
theorem pairAccesses : Obligations.PairAccesses := by
  intro s v
  refine ⟨?wrLength, ?wrSource, ?wrTarget, ?wrPointer, ?rdPtl, ?rdPointer, ?rdWal, ?rdTarget, ?rdDbcl, ?rdLength⟩
  case wrLength =>
    rw [← setLengthHigh_setLengthLow s.transfer.length v]
    exact runText_wrPair (low := fun t => { t with length := setLengthLow t.length (lowByte v) })
      (high := fun t => { t with length := setLengthHigh t.length ((highByte v).extractLsb' 0 4) })
      (fun _ => rfl) (fun _ => rfl) rfl rfl s
  case wrSource =>
    have h := runText_wrPair (k := 4) (v := v) (low := fun t => { t with source := setLowByte t.source (lowByte v) })
      (high := fun t => { t with source := setHighByte t.source (highByte v) })
      (fun _ => rfl) (fun _ => rfl) rfl rfl s
    rwa [setHighByte_setLowByte] at h
  case wrTarget =>
    have h := runText_wrPair (k := 8) (v := v) (low := fun t => { t with target := setLowByte t.target (lowByte v) })
      (high := fun t => { t with target := setHighByte t.target (highByte v) })
      (fun _ => rfl) (fun _ => rfl) rfl rfl s
    rwa [setHighByte_setLowByte] at h
  case wrPointer =>
    have h := runText_wrPair (k := 12) (v := v) (low := fun t => { t with pointer := setLowByte t.pointer (lowByte v) })
      (high := fun t => { t with pointer := setHighByte t.pointer (highByte v) })
      (fun _ => rfl) (fun _ => rfl) rfl rfl s
    rwa [setHighByte_setLowByte] at h
  case rdPtl =>
    rw [← lowByte_eq_ofNat]
    exact runText_rdReg (f := fun t => lowByte t.pointer) (fun _ => rfl) rfl s
  case rdPointer =>
    rw [← highByte_eq_ofNat]
    exact runText_rdPair (f := fun t => lowByte t.pointer) (g := fun t => highByte t.pointer) (fun _ => rfl)
      (fun _ => rfl) rfl rfl s
  case rdWal =>
    rw [← lowByte_eq_ofNat]
    exact runText_rdReg (f := fun t => lowByte t.target) (fun _ => rfl) rfl s
  case rdTarget =>
    rw [← highByte_eq_ofNat]
    exact runText_rdPair (f := fun t => lowByte t.target) (g := fun t => highByte t.target) (fun _ => rfl)
      (fun _ => rfl) rfl rfl s
  case rdDbcl =>
    rw [← lengthLow_eq_ofNat]
    exact runText_rdReg (f := fun t => lengthLow t.length) (fun _ => rfl) rfl s
  case rdLength =>
    rw [← lengthHigh_eq_ofNat]
    exact runText_rdPair (f := fun t => lengthLow t.length) (g := fun t => (lengthHigh t.length).zeroExtend 8)
      (fun _ => rfl) (fun _ => rfl) rfl rfl s

end Sys2Proof.Machine

/-! SUPPORT. Single slots and ports in their exact form: reads of flag bytes, writes of the split counters, the writes
that poll the line, the mode ports and the resets. -/

namespace Sys2Proof.Machine

/-! ### Bits and bytes -/

theorem getLsbD_byteOfBits (b7 b6 b5 b4 b3 b2 b1 b0 : Bool) :
    let b := byteOfBits b7 b6 b5 b4 b3 b2 b1 b0
    b.getLsbD 7 = b7 ∧ b.getLsbD 6 = b6 ∧ b.getLsbD 5 = b5 ∧ b.getLsbD 4 = b4 ∧ b.getLsbD 3 = b3 ∧
      b.getLsbD 2 = b2 ∧ b.getLsbD 1 = b1 ∧ b.getLsbD 0 = b0 := by
  simp only [byteOfBits, BitVec.getLsbD_append, BitVec.getLsbD_ofBool]
  simp

theorem dbchValue_eq (s : State) : dbchValue s = (s.transfer.length >>> 8).setWidth 8 := by
  rw [dbchValue, lengthHigh_eq_ofNat]
  apply BitVec.eq_of_toNat_eq
  simp [Nat.shiftRight_eq_div_pow]

theorem stat2Value_eq (s : State) :
    stat2Value s = (if s.decoder.mode then 0x08 else 0x00) ||| (if s.decoder.form then 0x04 else 0x00) := by
  unfold stat2Value
  cases s.decoder.mode <;> cases s.decoder.form <;> rfl

theorem stat3Value_eq (s : State) : stat3Value s = if s.decoder.valid then 0x00 else 0x80 := by
  unfold stat3Value
  cases s.decoder.valid <;> rfl

theorem isHostDestination_eq (d : BitVec 3) : isHostDestination d = decide (d = 2 ∨ d = 3) := by
  rw [isHostDestination, Bool.decide_or]

theorem setLengthHigh_eq_mask_or (n : BitVec 12) (d : Byte) :
    setLengthHigh n (d.extractLsb' 0 4) = (n &&& 0x0FF) ||| ((d &&& 0x0F).setWidth 12 <<< 8) := by
  have hlow : (d.extractLsb' 0 4).setWidth 12 = (d &&& 0x0F).setWidth 12 := by
    apply BitVec.eq_of_toNat_eq
    rw [BitVec.toNat_setWidth, BitVec.toNat_setWidth, BitVec.toNat_and, BitVec.extractLsb'_toNat]
    exact congrArg (· % 4096) (Nat.and_two_pow_sub_one_eq_mod d.toNat 4).symm
  rw [← hlow]
  exact append_extract_eq_mask_or (m := 4) (n := 8) n (d.extractLsb' 0 4) (by decide)

theorem setLengthHigh_zero (n : BitVec 12) : setLengthHigh n 0 = n &&& 0x0FF := by
  have h : setLengthHigh n 0 = _ := append_extract_eq_mask_or (m := 4) (n := 8) n 0 (mask := 0x0FF) (by decide)
  rw [h]
  simp

/-- A source that is not pending contributes nothing to the OR of R177. -/
theorem or_not_pending (p enable : Bool) : (p || enable && false) = p := by
  rw [Bool.and_false, Bool.or_false]

theorem not_pending_or (p enable : Bool) : (enable && false || p) = p := by
  rw [Bool.and_false, Bool.false_or]

/-! ### Reads -/

/-- Settles O1: each is a read without effect of a constant. -/
theorem constantSlotReads : Obligations.ConstantSlotReads := by
  intro s
  refine ⟨fun h => ?comin, fun h => ?stat0, fun h => ?stat1⟩
  case comin =>
    have hread : execRdComin s = _ := windowRead_id_eq h (k' := 0) rfl rfl
    rw [← h] at hread
    exact hread
  case stat0 => exact (windowRead_id_eq h rfl rfl : execRdStat0 s = _)
  case stat1 => exact (windowRead_id_eq h rfl rfl : execRdStat1 s = _)

/-- Settles O3: both are reads without effect of a byte put together from flags or the length. -/
theorem dbchAndStat2Reads : Obligations.DbchAndStat2Reads := by
  intro s
  refine ⟨fun h => ?dbch, fun h => ?stat2⟩
  case dbch => exact (windowRead_id_eq h rfl (dbchValue_eq s) : execRdDbch s = _)
  case stat2 => exact (windowRead_id_eq h rfl (stat2Value_eq s) : execRdStat2 s = _)

/-- Settles O4: the byte answered is put together from the eight bits. -/
theorem ifstatRead : Obligations.IfstatRead := by
  intro s h
  exact ⟨ifstatValue s, (windowRead_id_eq h rfl rfl : execRdIfstat s = _), getLsbD_byteOfBits ..⟩

/-- Settles O5: the mode decides between the field and the refusal. -/
theorem headerSlotReads : Obligations.HeaderSlotReads := by
  intro s
  exact ⟨fun hh => ⟨fun h => headRead_of_header h hh _, fun h => headRead_of_header h hh _,
      fun h => headRead_of_header h hh _, fun h => headRead_of_header h hh _⟩,
    fun hh => ⟨fun h => headRead_of_subheader h hh _, fun h => headRead_of_subheader h hh _,
      fun h => headRead_of_subheader h hh _, fun h => headRead_of_subheader h hh _⟩⟩

/-- Settles O6: with the decoder interrupt cleared the poll finds the transfer source alone. -/
theorem stat3ReadAcknowledges : Obligations.Stat3ReadAcknowledges := by
  intro s h
  have hread : exec .rdStat3 s = _ := windowRead_of_eq h stat3Value acknowledgeDecoder
  rw [hread, stat3Value_eq, ← not_pending_or (_ && _) s.irq.decoder.enable]
  rfl

/-! ### Writes -/

/-- Settles O10: each is a write of the transfer registers that splices the byte into its counter. -/
theorem splitCounterByteWrites : Obligations.SplitCounterByteWrites := by
  intro s d
  refine ⟨?dbch, ?dacl, ?dach, ?ptl, ?pth⟩ <;> intro h
  case dbch =>
    rw [← setLengthHigh_eq_mask_or]
    exact (windowWrite_setTransfer_eq h rfl : execWrDbch d s = _)
  case dacl =>
    rw [← setLowByte_eq_mask_or]
    exact (windowWrite_setTransfer_eq h rfl : execWrDacl d s = _)
  case dach =>
    rw [← setHighByte_eq_mask_or]
    exact (windowWrite_setTransfer_eq h rfl : execWrDach d s = _)
  case ptl =>
    rw [← setLowByte_eq_mask_or]
    exact (windowWrite_setTransfer_eq h rfl : execWrPtl d s = _)
  case pth =>
    rw [← setHighByte_eq_mask_or]
    exact (windowWrite_setTransfer_eq h rfl : execWrPth d s = _)

/-- Settles O11: `stop()` is the AND of the flags with bit 1, and the poll sees the enables just written. -/
theorem ifctrlWrite : Obligations.IfctrlWrite := by
  intro s d h
  have hwrite : exec (.wrIfctrl d) s = _ := windowWrite_of_eq h (ifctrlBody d)
  rw [hwrite, ifctrlBody_eq]
  rfl

/-- Settles O12: each stores the bits of its byte, then mode and form follow the control bits. -/
theorem controlWrites : Obligations.ControlWrites := by
  intro s d
  refine ⟨fun h => ?ctrl0, fun h => ?ctrl1⟩
  case ctrl0 => exact (windowWrite_of_eq h (ctrl0Body d) : execWrCtrl0 d s = _)
  case ctrl1 => exact (windowWrite_of_eq h (ctrl1Body d) : execWrCtrl1 d s = _)

/-- Settles O13: both bodies do nothing, and the slot after SBOUT's is its own. -/
theorem effectlessWrites : Obligations.EffectlessWrites := by
  intro s d
  refine ⟨fun h => ?sbout, fun h => ?ctrl2⟩
  case sbout =>
    have hwrite : execWrSbout d s = .next { s with regfile := { address := 0 }, response := .none } :=
      windowWrite_of_eq h id
    rw [← h] at hwrite
    exact hwrite
  case ctrl2 => exact (windowWrite_of_eq h id : execWrCtrl2 d s = _)

/-- Settles O14: `start()` runs where transfer output is enabled. -/
theorem dtrgWrite : Obligations.DtrgWrite := by
  intro s d h
  have hwrite : exec (.wrDtrg d) s = _ := windowWrite_of_eq h startTransfer
  rw [hwrite]
  refine ⟨fun he => ?_, fun he => ?_⟩
  · rw [startTransfer_of_disabled he]
    rfl
  · rw [startTransfer_of_enabled he, isHostDestination_eq, ← or_not_pending (_ && _) s.irq.transfer.enable]
    rfl

/-- Settles O15: the pending bit and `length[11:8]` are cleared before the poll. -/
theorem dtackWrite : Obligations.DtackWrite := by
  intro s d h
  have hwrite : exec (.wrDtack d) s = _ := windowWrite_of_eq h dtackBody
  rw [hwrite, ← setLengthHigh_zero, ← or_not_pending (_ && _) s.irq.transfer.enable]
  rfl

/-- Settles O16: the body leaves the power-on values; the latch wraps to 0. -/
theorem resetWrite : Obligations.ResetWrite := by
  intro s d h
  have hwrite : exec (.wrReset d) s = _ :=
    windowWrite_of_eq h fun s => driveLine (stopTransfer (resetSubstates s))
  rw [hwrite]
  simp only [resetBody_eq]
  rfl

/-! ### Ports -/

theorem hostModeByte_eq (p : HostModeByte) (m : Word) :
    hostModeByte p m = if p = .high then (m >>> 8).setWidth 8 else m.setWidth 8 := by
  cases p with
  | high => exact highByte_eq_setWidth m
  | low => exact lowByte_eq_setWidth m

theorem zeroExtend_highByte (m : Word) : (highByte m).zeroExtend 16 = m >>> 8 := by
  have hm := m.isLt
  apply BitVec.eq_of_toNat_eq
  simp only [highByte, BitVec.truncate_eq_setWidth, BitVec.toNat_setWidth, BitVec.extractLsb'_toNat,
    BitVec.toNat_ushiftRight, Nat.shiftRight_eq_div_pow]
  omega

theorem zeroExtend_lowByte (m : Word) : (lowByte m).zeroExtend 16 = m &&& 0xFF := by
  apply BitVec.eq_of_toNat_eq
  have hmask : (m &&& 0xFF).toNat = m.toNat % 256 := Nat.and_two_pow_sub_one_eq_mod m.toNat 8
  rw [hmask, lowByte_eq_ofNat]
  simp only [BitVec.truncate_eq_setWidth, BitVec.toNat_setWidth, BitVec.toNat_ofNat]
  omega

theorem zeroExtend_hostModeByte (p : HostModeByte) (m : Word) :
    (hostModeByte p m).zeroExtend 16 = if p = .high then m >>> 8 else m &&& 0xFF := by
  cases p with
  | high => exact zeroExtend_highByte m
  | low => exact zeroExtend_lowByte m

/-- Settles O18: `m` is the mode register; MODERDH and the host's image hold the byte the parameter selects. -/
theorem hostModeByteRead : Obligations.HostModeByteRead := by
  intro s
  refine ⟨modeRegister s, rfl, rfl, ?_, ?_, rfl, rfl⟩
  · rw [← hostModeByte_eq]
    rfl
  · rw [← zeroExtend_hostModeByte]
    rfl

/-- Settles O19: each port stores the low bits of its byte in its one field. -/
theorem modePortWrites : Obligations.ModePortWrites := by
  intro s d
  rw [BitVec.setWidth_eq_extractLsb' (by decide), BitVec.setWidth_eq_extractLsb' (by decide)]
  exact ⟨rfl, rfl⟩

/-- Settles O22: one count per call, on a 12-bit counter. -/
theorem stopwatchCounts : Obligations.StopwatchCounts := by
  intro s c
  refine ⟨?_, s.stopwatch + 1, rfl, BitVec.toNat_add ..⟩
  rw [BitVec.ofNat_toNat]
  rfl

/-- Settles O37: POLL is the poll alone. -/
theorem pollDrivesLine : Obligations.PollDrivesLine := by
  rintro s p rfl
  refine ⟨rfl, fun hline => ?_⟩
  have hkeep : ({ s.irq with line := s.irq.aggregate } : Irq) = s.irq := by
    rw [show s.irq.aggregate = s.irq.line from hline.symm]
  calc exec .poll s
    _ = finish ((s.emit (lineEvent s.irq.aggregate)).setIrq { s.irq with line := s.irq.aggregate }) := rfl
    _ = finish ((s.emit (lineEvent s.irq.aggregate)).setIrq s.irq) := by rw [hkeep]

/-! ### Resets -/

/-- Settles O38: the ring is the draw the counter selects, and no source is left for the poll to find. -/
theorem sysResetState : Obligations.SysResetState := by
  intro s
  exact ⟨_, execSysReset_eq s, Memory.wf_ofDraw _, fun a ha => Memory.read_ofDraw _ ha⟩

/-- Settles O39: every component is replaced by its power-on value. -/
theorem constructState : Obligations.ConstructState := execConstruct_eq

/-- Settles O40: each slot and port is read once from the power-on state. -/
theorem resetRegisterValues : Obligations.ResetRegisterValues := by
  refine ⟨fun k => ?_, rfl, rfl, rfl, rfl, rfl, fun _ => rfl⟩
  fin_cases k <;> exact ⟨_, rfl, rfl⟩

end Sys2Proof.Machine
